-- ==== Sys2Proof/Word.lean ====
section
/-! DEFINITION. The word types of the framer (R8, 00_scope.md). -/

namespace Sys2Proof

/-- Every transfer on `rx` and `tx`, every stored byte and the checksum: 8 bits (R8, R70). -/
abbrev Byte := BitVec 8

/-- A hex digit's value: 4 bits (R8, R15). -/
abbrev Nibble := BitVec 4

/-- A register of the snapshot: 32 bits (R8, R10). -/
abbrev RegWord := BitVec 32

end Sys2Proof
end

