-- ==== Sys2Proof/Machine/Phase.lean ====
section
/-! DEFINITION. The six protocol states and their encoding (R21, R22). -/

namespace Sys2Proof

/-- The Protocol State by name (R21). -/
inductive Phase where
  | init | cmdRead | cksum1 | cksum2 | waitAck | quit
  deriving DecidableEq, Repr

/-- The encoding of `st` (R22). -/
def phaseCode : Phase → BitVec 3
  | .init => 0#3
  | .cmdRead => 1#3
  | .cksum1 => 2#3
  | .cksum2 => 3#3
  | .waitAck => 4#3
  | .quit => 5#3

/-- The state that an `st` encodes; 6 and 7 encode none (R22). -/
def phaseOf (st : BitVec 3) : Option Phase :=
  if st = 0#3 then some .init
  else if st = 1#3 then some .cmdRead
  else if st = 2#3 then some .cksum1
  else if st = 3#3 then some .cksum2
  else if st = 4#3 then some .waitAck
  else if st = 5#3 then some .quit
  else none

end Sys2Proof
end

