-- ==== Sys2Proof/Machine/Ascii.lean ====
section
/-! DEFINITION. The ASCII bytes and literal texts the rules name (R9; UNVERIFIED, log entry 24: the source gives no
code table, 93_implementation_defined.md G1). simp unfolds a byte's name to its numeral. -/

namespace Sys2Proof

/-- `'$'`, which opens a frame (R71). -/
@[simp] def chDollar : Byte := 0x24#8
/-- `'#'`, which ends a payload (R71). -/
@[simp] def chHash : Byte := 0x23#8
/-- `'+'`, the ACK (R74). -/
@[simp] def chPlus : Byte := 0x2B#8
/-- `'-'`, the NAK (R74). -/
@[simp] def chMinus : Byte := 0x2D#8
/-- `','`, which splits the operands of `m` (R78). -/
@[simp] def chComma : Byte := 0x2C#8
/-- The byte at which the command text ends (R160). -/
@[simp] def chNul : Byte := 0x00#8
/-- Selector `'H'` (R77). -/
@[simp] def selH : Byte := 0x48#8
/-- Selector `'q'` (R77). -/
@[simp] def selQ : Byte := 0x71#8
/-- Selector `'?'` (R77). -/
@[simp] def selStop : Byte := 0x3F#8
/-- Selector `'g'` (R77). -/
@[simp] def selG : Byte := 0x67#8
/-- Selector `'m'` (R77). -/
@[simp] def selM : Byte := 0x6D#8
/-- Selector `'k'` (R77). -/
@[simp] def selK : Byte := 0x6B#8

/-- `"Offsets"` (R163). -/
def txtOffsets : List Byte := [0x4F#8, 0x66#8, 0x66#8, 0x73#8, 0x65#8, 0x74#8, 0x73#8]
/-- `"OK"` (R162). -/
def txtOK : List Byte := [0x4F#8, 0x4B#8]
/-- `"S09"` (R166). -/
def txtS09 : List Byte := [0x53#8, 0x30#8, 0x39#8]
/-- `"ENS"` (R164). -/
def txtENS : List Byte := [0x45#8, 0x4E#8, 0x53#8]
/-- `"E01"` (R174; three bytes, 90_conflicts.md C3). -/
def txtE01 : List Byte := [0x45#8, 0x30#8, 0x31#8]
/-- `"E02"` (R170; three bytes, 90_conflicts.md C3). -/
def txtE02 : List Byte := [0x45#8, 0x30#8, 0x32#8]
/-- `"Text="` (R163). -/
def txtText : List Byte := [0x54#8, 0x65#8, 0x78#8, 0x74#8, 0x3D#8]
/-- `";Data="` (R163). -/
def txtData : List Byte := [0x3B#8, 0x44#8, 0x61#8, 0x74#8, 0x61#8, 0x3D#8]
/-- `";Bss="` (R163). -/
def txtBss : List Byte := [0x3B#8, 0x42#8, 0x73#8, 0x73#8, 0x3D#8]

end Sys2Proof
end

