-- ==== Sys2Proof/Machine/Codec.lean ====
section
/-! DEFINITION. The hex-nibble and checksum codec (40_codec.md): pure and total. -/

namespace Sys2Proof

/-- `nib(b)` (R100): the value of a hex digit of either case; `none` signals protocol garbage, no error (R102). -/
def nib (b : Byte) : Option Nibble :=
  let v := b.toNat
  if 0x30 ≤ v ∧ v ≤ 0x39 then some (BitVec.ofNat 4 (v - 0x30))
  else if 0x41 ≤ v ∧ v ≤ 0x46 then some (BitVec.ofNat 4 (v - 0x41 + 10))
  else if 0x61 ≤ v ∧ v ≤ 0x66 then some (BitVec.ofNat 4 (v - 0x61 + 10))
  else none

/-- `hexdig(n)` (R108): one nibble as a lowercase hex digit (R110). -/
def hexdig (n : Nibble) : Byte :=
  if n.toNat ≤ 9 then BitVec.ofNat 8 (0x30 + n.toNat) else BitVec.ofNat 8 (0x61 + (n.toNat - 10))

/-- `csum(s)` (R103): the sum of the bytes mod 256; a sum of bytes wraps at 256. -/
def csum : List Byte → Byte
  | [] => 0
  | b :: s => b + csum s

/-- `hex2(v)` (R105): a byte as two hex digits, high nibble first. -/
def hex2 (v : Byte) : List Byte := [hexdig (v.extractLsb' 4 4), hexdig (v.extractLsb' 0 4)]

/-- `hex8(w)` (R106, R51): a 32-bit word as eight hex digits, most significant byte first. -/
def hex8 (w : RegWord) : List Byte :=
  hex2 (w.extractLsb' 24 8) ++ hex2 (w.extractLsb' 16 8) ++ hex2 (w.extractLsb' 8 8) ++ hex2 (w.extractLsb' 0 8)

/-- The last `fuel` hex digits of `v` at most, most significant first, without leading zeros. -/
def hexDigits : Nat → Nat → List Byte
  | 0, _ => []
  | fuel + 1, v => (if v < 16 then [] else hexDigits fuel (v / 16)) ++ [hexdig (BitVec.ofNat 4 v)]

/-- `hexmin(v)` (R107) of a value of `w` bits: minimal lowercase digits, `"0"` for 0, at most `w / 4` of them.
The reading of `%x` as C's conversion is UNVERIFIED (log entry 25). -/
def hexmin (w v : Nat) : List Byte := hexDigits (w / 4) v

/-- The declared checksum of two digits (R109): `16 * hi + lo`. -/
def declared (hi lo : Nibble) : Byte := BitVec.ofNat 8 (16 * hi.toNat + lo.toNat)

/-- The loop of `hexval_W` (R111) from the value `v`: `none` where a byte is no hex digit. -/
def hexvalFrom (w : Nat) : Nat → List Byte → Option Nat
  | v, [] => some v
  | v, b :: s =>
    match nib b with
    | none => none
    | some n => hexvalFrom w ((v * 16 + n.toNat) % 2 ^ w) s

/-- `hexval_W(s)` (R111): a hex field as a `w`-bit unsigned value, excess high digits lost, 0 for an empty field;
`none` stands for `Draw_W`. -/
def hexval (w : Nat) (s : List Byte) : Option Nat := hexvalFrom w 0 s

end Sys2Proof
end

