-- ==== Sys2Proof/Syntax.lean ====
section
/-! DEFINITION. The framer's instructions: one constructor per row of spec/opcode_table.json. -/

namespace Sys2Proof

/-- The 14 byte classes of R76 (an input byte read in a state) and the 8 commands of R77 (the text of a
verified payload). A dropped or stored byte is an operand. A checksum digit is the nibble it stands for. A
command's bytes after its selector are an operand. -/
inductive Instr where
  /-- FRAME_START (R121): `'$'` in INIT. -/
  | frameStart
  /-- INIT_NOISE (R122): any other byte in INIT. -/
  | initNoise (b : Byte)
  /-- FRAME_END (R125): `'#'` in CMDREAD. -/
  | frameEnd
  /-- PAYLOAD_STORE (R123): any other byte in CMDREAD, with room in the Command Buffer. -/
  | payloadStore (b : Byte)
  /-- PAYLOAD_DROP (R124): any other byte in CMDREAD, the Command Buffer full. -/
  | payloadDrop (b : Byte)
  /-- CKSUM_HI (R126): a hex digit in CKSUM1. -/
  | cksumHi (n : Nibble)
  /-- CKSUM1_GARBAGE (R127): a byte that is no hex digit in CKSUM1. -/
  | cksum1Garbage (b : Byte)
  /-- CKSUM_LO_BAD (R128, R129): a hex digit in CKSUM2 that completes a wrong checksum. -/
  | cksumLoBad (n : Nibble)
  /-- CKSUM_LO_GOOD (R128, R130): a hex digit in CKSUM2 that completes the right checksum. -/
  | cksumLoGood (n : Nibble)
  /-- CKSUM2_GARBAGE (R133): a byte that is no hex digit in CKSUM2. -/
  | cksum2Garbage (b : Byte)
  /-- ACK_RX (R134): `'+'` in WAITACK. -/
  | ackRx
  /-- NAK_RX (R135): `'-'` in WAITACK. -/
  | nakRx
  /-- WAITACK_OTHER (R136): any other byte in WAITACK. -/
  | waitackOther (b : Byte)
  /-- QUIT_HALT (R137): the state QUIT, which takes no byte. -/
  | quitHalt
  /-- `H` (R162): select thread. -/
  | selectThread (rest : List Byte)
  /-- `qOffsets` (R163): section offsets. -/
  | queryOffsets
  /-- `q` with any other rest (R164). -/
  | queryOther (rest : List Byte)
  /-- `?` (R166): stop reason. -/
  | stopReason (rest : List Byte)
  /-- `g` (R168): read registers. -/
  | readRegisters (rest : List Byte)
  /-- `m` (R170): read memory; the address field, and the length field where there is a comma (R78). -/
  | readMemory (addr : List Byte) (len : Option (List Byte))
  /-- `k` (R172): kill or detach. -/
  | kill (rest : List Byte)
  /-- Unknown (R174): a text that is empty or has another first byte. -/
  | unknown (text : List Byte)
  deriving DecidableEq, Repr

end Sys2Proof
end

