-- ==== Sys2Proof/WellFormed.lean ====
section
/-! DEFINITION. Which instruction terms are rows of R76 and R77 with operands their row admits. -/

namespace Sys2Proof

/-- Bytes that can stand in a command text: none is 0x00 (R160). -/
def isText (s : List Byte) : Bool := s.all (· != chNul)

/-- Whether a byte selects one of the six named commands (R77). -/
def isSelector (b : Byte) : Bool :=
  b == selH || b == selQ || b == selStop || b == selG || b == selM || b == selK

/-- A term is well formed where its operands are in its row's byte class (R76) or are a text its row matches (R77). -/
def Instr.wf : Instr → Bool
  | .frameStart | .frameEnd | .ackRx | .nakRx | .quitHalt | .queryOffsets => true
  | .initNoise b => b != chDollar
  | .payloadStore b | .payloadDrop b => b != chHash
  | .cksumHi _ | .cksumLoBad _ | .cksumLoGood _ => true
  | .cksum1Garbage b | .cksum2Garbage b => nib b == none
  | .waitackOther b => b != chPlus && b != chMinus
  | .selectThread r | .stopReason r | .readRegisters r | .kill r => isText r
  | .queryOther r => isText r && r != txtOffsets
  | .readMemory a l => isText a && a.all (· != chComma) && (l.getD []).all (· != chNul)
  | .unknown [] => true
  | .unknown (c :: r) => isText (c :: r) && !isSelector c

/-- Whether an instruction is a command (R77) and not an input-byte row (R76). -/
def Instr.isCommand : Instr → Bool
  | .selectThread _ | .queryOffsets | .queryOther _ | .stopReason _ | .readRegisters _ | .readMemory _ _
  | .kill _ | .unknown _ => true
  | .frameStart | .initNoise _ | .frameEnd | .payloadStore _ | .payloadDrop _ | .cksumHi _ | .cksum1Garbage _
  | .cksumLoBad _ | .cksumLoGood _ | .cksum2Garbage _ | .ackRx | .nakRx | .waitackOther _ | .quitHalt => false

end Sys2Proof
end

