-- ==== Sys2Proof/Decode.lean ====
section
/-! DEFINITION. Decoding of input bytes (R76) and of command texts (R77, R160, R161), and the encoder. -/

namespace Sys2Proof

/-- What the rows of R76 test besides the byte: `st`, whether the Command Buffer is full, `hi` and `csum_acc`. -/
structure RxContext where
  st : BitVec 3
  full : Bool
  hi : Nibble
  csumAcc : Byte
  deriving DecidableEq, Repr

/-- Why a byte decodes to no row. -/
inductive DecodeError where
  /-- `st` encodes none of the six states (R22). -/
  | illegalState
  deriving DecidableEq, Repr

/-- The row of R76 that applies to byte `b`, state by state. QUIT takes no byte: its row applies whatever `rx`
offers, and consumes nothing (R137). -/
def decodeRx (c : RxContext) (b : Byte) : Except DecodeError Instr :=
  match phaseOf c.st with
  | none => .error .illegalState
  | some .init => .ok (if b = chDollar then .frameStart else .initNoise b)
  | some .cmdRead =>
    .ok (if b = chHash then .frameEnd else if c.full then .payloadDrop b else .payloadStore b)
  | some .cksum1 =>
    match nib b with
    | some n => .ok (.cksumHi n)
    | none => .ok (.cksum1Garbage b)
  | some .cksum2 =>
    match nib b with
    | some n => .ok (if declared c.hi n = c.csumAcc then .cksumLoGood n else .cksumLoBad n)
    | none => .ok (.cksum2Garbage b)
  | some .waitAck =>
    .ok (if b = chPlus then .ackRx else if b = chMinus then .nakRx else .waitackOther b)
  | some .quit => .ok .quitHalt

/-- The command text of a stored payload (R160): up to its first 0x00, or all of it. -/
def textOf (s : List Byte) : List Byte := s.takeWhile (· != chNul)

/-- What the dispatcher selects (R161): one of the eight command rules with its operands. -/
inductive Command where
  | selectThread (rest : List Byte)
  | queryOffsets
  | queryOther (rest : List Byte)
  | stopReason (rest : List Byte)
  | readRegisters (rest : List Byte)
  | readMemory (addr : List Byte) (len : Option (List Byte))
  | kill (rest : List Byte)
  | unknown (text : List Byte)
  deriving DecidableEq, Repr

/-- The command as an instruction. -/
def commandInstr : Command → Instr
  | .selectThread r => .selectThread r
  | .queryOffsets => .queryOffsets
  | .queryOther r => .queryOther r
  | .stopReason r => .stopReason r
  | .readRegisters r => .readRegisters r
  | .readMemory a l => .readMemory a l
  | .kill r => .kill r
  | .unknown t => .unknown t

/-- The operand fields of `m` (R78, R170): the bytes before the first comma, and the bytes after it where there is one. -/
def splitComma (s : List Byte) : List Byte × Option (List Byte) :=
  (s.takeWhile (· != chComma),
    match s.dropWhile (· != chComma) with
    | [] => none
    | _ :: l => some l)

/-- The selection of R161 on a command text, by its first byte. -/
def selectCommand : List Byte → Command
  | [] => .unknown []
  | c :: rest =>
    if c = selH then .selectThread rest
    else if c = selQ then (if rest = txtOffsets then .queryOffsets else .queryOther rest)
    else if c = selStop then .stopReason rest
    else if c = selG then .readRegisters rest
    else if c = selM then .readMemory (splitComma rest).1 (splitComma rest).2
    else if c = selK then .kill rest
    else .unknown (c :: rest)

/-- The command in a stored payload (R160, R161). -/
def decodeCommand (s : List Byte) : Command := selectCommand (textOf s)

/-- The bytes of an instruction: the input byte of a row of R76 (none for QUIT_HALT, which takes no byte), or the
command text of a row of R77. A checksum digit is written lowercase (R110). -/
def encode : Instr → List Byte
  | .frameStart => [chDollar]
  | .initNoise b => [b]
  | .frameEnd => [chHash]
  | .payloadStore b => [b]
  | .payloadDrop b => [b]
  | .cksumHi n => [hexdig n]
  | .cksum1Garbage b => [b]
  | .cksumLoBad n => [hexdig n]
  | .cksumLoGood n => [hexdig n]
  | .cksum2Garbage b => [b]
  | .ackRx => [chPlus]
  | .nakRx => [chMinus]
  | .waitackOther b => [b]
  | .quitHalt => []
  | .selectThread r => selH :: r
  | .queryOffsets => selQ :: txtOffsets
  | .queryOther r => selQ :: r
  | .stopReason r => selStop :: r
  | .readRegisters r => selG :: r
  | .readMemory a none => selM :: a
  | .readMemory a (some l) => selM :: (a ++ chComma :: l)
  | .kill r => selK :: r
  | .unknown t => t

/-- Whether a row of R76 applies in a context: its state, and its guard on the Command Buffer or the checksum. No
command row applies to an input byte. -/
def appliesIn (c : RxContext) : Instr → Bool
  | .frameStart | .initNoise _ => phaseOf c.st == some .init
  | .frameEnd => phaseOf c.st == some .cmdRead
  | .payloadStore _ => phaseOf c.st == some .cmdRead && !c.full
  | .payloadDrop _ => phaseOf c.st == some .cmdRead && c.full
  | .cksumHi _ | .cksum1Garbage _ => phaseOf c.st == some .cksum1
  | .cksumLoBad n => phaseOf c.st == some .cksum2 && declared c.hi n != c.csumAcc
  | .cksumLoGood n => phaseOf c.st == some .cksum2 && declared c.hi n == c.csumAcc
  | .cksum2Garbage _ => phaseOf c.st == some .cksum2
  | .ackRx | .nakRx | .waitackOther _ => phaseOf c.st == some .waitAck
  | .quitHalt => phaseOf c.st == some .quit
  | .selectThread _ | .queryOffsets | .queryOther _ | .stopReason _ | .readRegisters _ | .readMemory _ _
  | .kill _ | .unknown _ => false

/-- The bytes of a table word, the first at the lowest bits. -/
def tableBytes (nbits w : Nat) : List Byte :=
  (List.range (nbits / 8)).map fun k => BitVec.ofNat 8 (w >>> (8 * k))

/-- Where a single byte of the opcode table is read: the state whose row fixes it or lists it, no state where it is a
command's selector, and INIT (the state after reset) for any other byte (DESIGN CHOICE, log entry 21). -/
def tableContext (b : Byte) : Option Phase :=
  if isSelector b then none
  else if b = chHash then some .cmdRead
  else if b = chPlus ∨ b = chMinus then some .waitAck
  else if (nib b).isSome then some .cksum1
  else some .init

/-- The instruction the decoder reads from a word of the opcode table: one byte is an input byte in the context of its
row or a one-byte command text; more bytes are a command text. -/
def decodeTableWord (nbits w : Nat) : Option Instr :=
  if nbits % 8 ≠ 0 then none
  else
    match tableBytes nbits w with
    | [] => none
    | [b] =>
      match tableContext b with
      | none => some (commandInstr (decodeCommand [b]))
      | some ph => (decodeRx ⟨phaseCode ph, false, 0, 0⟩ b).toOption
    | t => some (commandInstr (decodeCommand t))

end Sys2Proof
end

