-- ==== Sys2Proof/Config.lean ====
section
/-! DEFINITION. The parameters of R7 and the free values the spec leaves to a draw. -/

namespace Sys2Proof

/-- The parameters of R7 (00_scope.md). They are fixed when the framer is built (R32, R43). The host's interface gives
the machine no argument but its state, so State carries them as a field that no step writes (log entry 1). -/
structure Config where
  /-- `CMD_CAP`: bytes the Command Buffer stores. -/
  cmdCap : Nat
  /-- `MEM_CAP`: the largest `m` read. -/
  memCap : Nat
  /-- `NREGS`: registers in a `g` reply (OPEN). -/
  nregs : Nat
  /-- `REG_ORDER`: the name of register i (OPEN; no value depends on a name). -/
  regOrder : List String
  /-- `ADDR_W`: width in bits of an `m` address and length and of the qOffsets values. -/
  addrW : Nat
  /-- `REPLY_CAP`: bytes the Reply Buffer stores. -/
  replyCap : Nat
  /-- `TEXT_OFF` (OPEN). -/
  textOff : Nat
  /-- `DATA_OFF` (OPEN). -/
  dataOff : Nat
  /-- `BSS_OFF` (OPEN). -/
  bssOff : Nat
  deriving DecidableEq, Repr

/-- The constraints of R7. `MEM_CAP` is 128 (R7's source value, R55); REG_ORDER has NREGS names and the offsets have
ADDR_W bits, by R7's own descriptions of them (DEDUCED, log entry 3). -/
def Config.valid (c : Config) : Bool :=
  decide (512 ≤ c.cmdCap ∧ c.memCap = 128 ∧ 1 ≤ c.nregs ∧ 8 * c.nregs + 4 ≤ c.replyCap ∧
    c.addrW % 4 = 0 ∧ 8 ≤ c.addrW ∧ c.addrW ≤ 64 ∧
    4 + max (2 * c.memCap) (max (8 * c.nregs) (16 + 3 * c.addrW / 4)) ≤ c.replyCap ∧
    c.regOrder.length = c.nregs ∧
    c.textOff < 2 ^ c.addrW ∧ c.dataOff < 2 ^ c.addrW ∧ c.bssOff < 2 ^ c.addrW)

/-- The configuration of `State.reset`: the spec's values of R7, and for the OPEN parameters the least register count
and offsets 0 (DESIGN CHOICE, log entry 2; every claim quantifies over the configuration instead). -/
def Config.initial : Config where
  cmdCap := 512
  memCap := 128
  nregs := 1
  regOrder := ["R0"]
  addrW := 32
  replyCap := 516
  textOff := 0
  dataOff := 0
  bssOff := 0

/-- Free value: the word of register `i` in the snapshot that draw `k` answers (R241; log entry 8). -/
opaque Config.regWord (k i : Nat) : RegWord

/-- Free value: the CPU whose snapshot draw `k` answers with (R240; log entry 8). -/
opaque Config.regCpu (k : Nat) : Nat

/-- Free value: whether the safe copy of draw `k` answers `Fault` (R241; log entry 8). -/
opaque Config.copyFaults (k : Nat) : Bool

/-- Free value: byte `i` of the safe copy of draw `k` (R241; log entry 8). -/
opaque Config.copyByte (k i : Nat) : Byte

/-- Free value: the address that draw `k` reads from an address field with a non-hex byte, before it is cut to ADDR_W
bits (R111; log entry 9). -/
opaque Config.addrDraw (k : Nat) : Nat

/-- Free value: the length that draw `k` reads from a length field with a non-hex byte, before it is cut to ADDR_W
bits (R111; log entry 9). -/
opaque Config.lenDraw (k : Nat) : Nat

end Sys2Proof
end

