-- ==== Sys2Proof/Machine/State.lean ====
section
/-! DEFINITION. The state of the framer (R20), the environment's side of its ports (R36 to R42) as plain data, and the
reasons a step stops. -/

namespace Sys2Proof.Machine

/-- A response on the `regs` port (R38): the words of one CPU's snapshot, in REG_ORDER (R240: the CPU is the
environment's choice), or no response ever (R242). -/
inductive RegsAnswer where
  | words (cpu : Nat) (ws : List RegWord)
  | silent
  deriving DecidableEq, Repr

/-- A response on the `copy` port (R39): `Ok` with bytes in ascending address order, `Fault`, or no response ever
(R242). -/
inductive CopyAnswer where
  | ok (bytes : List Byte)
  | fault
  | silent
  deriving DecidableEq, Repr

/-- One transfer on a port of R36 to R39. A collaborator's request and its response are one transfer. -/
inductive Transfer where
  /-- A byte taken from `rx` (R36). -/
  | rx (b : Byte)
  /-- A byte emitted on `tx` (R37). -/
  | tx (b : Byte)
  /-- A `Regs()` request and its response (R38). -/
  | regs (a : RegsAnswer)
  /-- A `SafeCopy(addr, n)` request and its response (R39). -/
  | copy (addr n : Nat) (a : CopyAnswer)
  deriving DecidableEq, Repr

/-- The error events of R221 (60_exceptions.md). They appear on no port and change no state (R222). -/
inductive ErrorEvent where
  /-- EV1, framing noise. -/
  | ev1
  /-- EV2, malformed checksum digit. -/
  | ev2
  /-- EV3, checksum mismatch. -/
  | ev3
  /-- EV4, unsupported command. -/
  | ev4
  /-- EV5, inaccessible memory. -/
  | ev5
  /-- EV6, transport loss of synchronisation. -/
  | ev6
  /-- EV7, payload overflow. -/
  | ev7
  deriving DecidableEq, Repr

/-- The reset input (R42): not asserted; asserted at the step boundary (R250); or asserted during the step that starts
at the boundary (R251), after at most `txBytes` of the step's output bytes, with its collaborator request issued or
not. -/
inductive ResetPin where
  | released
  | asserted
  | during (txBytes : Nat) (request : Bool)
  deriving DecidableEq, Repr

/-- What the environment does at one step boundary (R268): the bytes that arrive at the transport, the level of
`quit_req` (R41) and of `rst` (R42). -/
structure Boundary where
  arrive : List Byte := []
  quitReq : Bool := false
  rst : ResetPin := .released
  deriving DecidableEq, Repr

/-- The machine. `st` to `replyValid` are the state elements of R20, which says there are no others. `cfg` is the
configuration (R43). The fields from `rx` to `draws` are the environment's inputs still to come (log entries 7, 10); `ports` and
`events` record what has happened (log entry 11). -/
structure State where
  /-- The parameters of R7; no step writes them. -/
  cfg : Config
  /-- `st`, the Protocol State, encoded by R22. -/
  st : BitVec 3
  /-- `cmd`, the Command Buffer: the bytes written since reset; those above were never written (log entry 5). -/
  cmd : List Byte
  /-- `cmd_len`, the write cursor (R23). -/
  cmdLen : Nat
  /-- `csum_acc`, the Checksum Accumulator (R24). -/
  csumAcc : Byte
  /-- `hi`, the high-nibble latch (R25). -/
  hi : Nibble
  /-- `reply`, the Reply Buffer: the bytes written since reset; those above were never written (log entry 5). -/
  reply : List Byte
  /-- `reply_len` (R26). -/
  replyLen : Nat
  /-- `reply_valid` (R26). -/
  replyValid : Bool
  /-- The bytes the transport holds, oldest first (R36). -/
  rx : List Byte
  /-- The step boundaries to come; past the end nothing arrives and no pin is asserted. -/
  schedule : List Boundary
  /-- The `regs` responses to come, one per request; past the end each is a free value (R241). -/
  regsAnswers : List RegsAnswer
  /-- The `copy` responses to come, one per request; past the end each is a free value (R241). -/
  copyAnswers : List CopyAnswer
  /-- Which free values the next `g` or `m` command takes. -/
  draws : Nat
  /-- The transfers on the ports so far, in order (R62). -/
  ports : List Transfer
  /-- The error events signalled so far (R222). -/
  events : List ErrorEvent
  deriving DecidableEq, Repr

/-- Why the machine stops. -/
inductive Fault where
  /-- `st` holds 6 or 7 (R22: a model must fault). Raised by a step at a boundary where `rst` is not asserted. Safe: no rule writes them. -/
  | illegalState
  /-- WAITACK with `reply_valid` = 0 (R135, I4: a model must fault). Raised by a step at a boundary where `rst` is not
  asserted, and by NAK_RX. Safe: no rule reaches it. -/
  | waitAckWithoutReply
  /-- The `regs` collaborator never answers, or answers with other than NREGS words: the step has no successor (R242,
  I10). Raised by `g`, with the state in which it stays. Safe: the model invents no reply. -/
  | regsStuck (s : State)
  /-- The `copy` collaborator never answers, or answers `Ok` with other than n bytes: the step has no successor (R242,
  I10). Raised by `m`, with the state in which it stays. Safe: the model invents no reply. -/
  | copyStuck (s : State)
  deriving DecidableEq, Repr

/-- Why the machine refuses. -/
inductive Refusal where
  /-- An instruction without a meaning in the model. Raised by exec's arm alone; no arm raises it. Safe. -/
  | notModelled (mnemonic : String)
  /-- A configuration that breaks a constraint of R7 (R7, I12: a model must refuse it). Raised by every step. Safe. -/
  | badConfiguration
  deriving DecidableEq, Repr

/-- The state elements as R44 gives them, in a framer built with `c`, with nothing waiting at its ports and nothing
recorded. `cmd` and `reply`, whose contents R44 leaves unspecified, hold no written byte (log entry 5). -/
def State.resetWith (c : Config) : State where
  cfg := c
  st := phaseCode .init
  cmd := []
  cmdLen := 0
  csumAcc := 0
  hi := 0
  reply := []
  replyLen := 0
  replyValid := false
  rx := []
  schedule := []
  regsAnswers := []
  copyAnswers := []
  draws := 0
  ports := []
  events := []

/-- The machine right after reset (R44, R250), with the spec's own parameter values (log entry 2). -/
def State.reset : State := State.resetWith Config.initial

end Sys2Proof.Machine
end

