-- ==== Sys2Proof/Machine/Ops.lean ====
section
/-! DEFINITION. The named operations on the state: the primitives of R12, the transport operations of R138 to R140, the
collaborator requests, and reset. The framer takes no exception and returns from none (R220, R228): there is no saved
pc, cause or handler, so no operation for it. -/

namespace Sys2Proof.Machine

/-- `buf[i..i+|new|) <- new`. -/
def overwrite (buf : List Byte) (i : Nat) (new : List Byte) : List Byte :=
  buf.take i ++ new ++ buf.drop (i + new.length)

/-- The stored payload `cmd[0..cmd_len)` (R23). -/
def storedPayload (s : State) : List Byte := s.cmd.take s.cmdLen

/-- The cached reply `reply[0..reply_len)` (R26). -/
def cachedReply (s : State) : List Byte := s.reply.take s.replyLen

/-- The byte of a transfer on `tx`. -/
def txByte : Transfer → Option Byte
  | .tx b => some b
  | .rx _ | .regs _ | .copy _ _ _ => none

/-- Every byte emitted on `tx` so far, in order. -/
def sent (s : State) : List Byte := s.ports.filterMap txByte

/-- `st <- ph` (R21). -/
def goto (ph : Phase) (s : State) : State := { s with st := phaseCode ph }

/-- Append to the record of the ports. -/
def record (ts : List Transfer) (s : State) : State := { s with ports := s.ports ++ ts }

/-- `Emit(bs)` (R12, R37): the bytes leave in order before the step goes on. -/
def emit (bs : List Byte) (s : State) : State := record (bs.map .tx) s

/-- `signal EVn` (R12, R222). -/
def signal (e : ErrorEvent) (s : State) : State := { s with events := s.events ++ [e] }

/-- `begin_command()` (R138): the bytes of `cmd` are not cleared (R33). -/
def beginCommand (s : State) : State := { s with cmdLen := 0, csumAcc := 0 }

/-- The store of `append_command_byte` (R139). -/
def storeByte (b : Byte) (s : State) : State :=
  { s with cmd := overwrite s.cmd s.cmdLen [b], cmdLen := s.cmdLen + 1, csumAcc := s.csumAcc + b }

/-- `append_command_byte(b)` (R139): only a stored byte enters `csum_acc` (R24, 90_conflicts.md C2). -/
def appendCommandByte (b : Byte) (s : State) : State :=
  if s.cmdLen < s.cfg.cmdCap then storeByte b s else signal .ev7 s

/-- `hi <- n` (R25, R126). -/
def latchHi (n : Nibble) (s : State) : State := { s with hi := n }

/-- The writes of `send` (R140): the three elements together (R26). -/
def cacheReply (frame : List Byte) (s : State) : State :=
  { s with reply := overwrite s.reply 0 frame, replyLen := frame.length, replyValid := true }

/-- `send(frame)` (R140). -/
def send (frame : List Byte) (s : State) : State := cacheReply frame (emit frame s)

/-- `resend_last()` (R140): the cached bytes verbatim, nothing recomputed (R57). -/
def resendLast (s : State) : State := emit (cachedReply s) s

/-- The response of draw `k` to `Regs()`: NREGS free words of a free CPU (R240, R241). -/
def drawRegs (nregs k : Nat) : List RegWord := (List.range nregs).map (Config.regWord k)

/-- The response of draw `k` to `SafeCopy(_, n)`: `none` for `Fault`, else n free bytes (R241). -/
def drawCopy (n k : Nat) : Option (List Byte) :=
  if Config.copyFaults k then none else some ((List.range n).map (Config.copyByte k))

/-- The words of a `regs` response inside its contract of `nregs` words (R38, R242). -/
def regsReply (nregs : Nat) : RegsAnswer → Option (List RegWord)
  | .words _ ws => if ws.length = nregs then some ws else none
  | .silent => none

/-- The result of a `copy` response inside its contract of `n` bytes (R39, R242): `some none` is `Fault`. -/
def copyReply (n : Nat) : CopyAnswer → Option (Option (List Byte))
  | .ok bs => if bs.length = n then some (some bs) else none
  | .fault => some none
  | .silent => none

/-- A `copy` result as a response on the port. -/
def copyAnswerOf : Option (List Byte) → CopyAnswer
  | some bs => .ok bs
  | none => .fault

/-- The state after a `Regs()` request that met `a`, an answer or silence. Every request advances the draws (R111, R241;
log entry 10). -/
def tookRegs (a : RegsAnswer) (s : State) : State :=
  { s with regsAnswers := s.regsAnswers.tail, draws := s.draws + 1, ports := s.ports ++ [.regs a] }

/-- The state after a `SafeCopy(addr, n)` request that met `a`, an answer or silence. Every request advances the draws
(R111, R241; log entry 10). -/
def tookCopy (addr n : Nat) (a : CopyAnswer) (s : State) : State :=
  { s with copyAnswers := s.copyAnswers.tail, draws := s.draws + 1, ports := s.ports ++ [.copy addr n a] }

/-- `Regs()` (R12, R38): one request. The response is the environment's next one, or a free value (R241); outside its
contract, or never given, it leaves the framer in the step (R242). -/
def askRegs (s : State) : Except Fault (List RegWord × State) :=
  match s.regsAnswers with
  | [] => .ok (drawRegs s.cfg.nregs s.draws,
      tookRegs (.words (Config.regCpu s.draws) (drawRegs s.cfg.nregs s.draws)) s)
  | a :: _ =>
    match regsReply s.cfg.nregs a with
    | some ws => .ok (ws, tookRegs a s)
    | none => .error (.regsStuck (tookRegs a s))

/-- `SafeCopy(addr, n)` (R12, R39): one request, with no check of alignment or range (R54, R59). `none` is `Fault`
(R58). The response is the environment's next one, or a free value (R241); outside its contract, or never given, it
leaves the framer in the step (R242). -/
def askCopy (addr n : Nat) (s : State) : Except Fault (Option (List Byte) × State) :=
  match s.copyAnswers with
  | [] => .ok (drawCopy n s.draws, tookCopy addr n (copyAnswerOf (drawCopy n s.draws)) s)
  | a :: _ =>
    match copyReply n a with
    | some r => .ok (r, tookCopy addr n a s)
    | none => .error (.copyStuck (tookCopy addr n a s))

/-- `RxByte()` (R12, R36): take the byte that `rx` offers. -/
def takeByte (b : Byte) (rest : List Byte) (s : State) : State :=
  { s with rx := rest, ports := s.ports ++ [.rx b] }

/-- What the rows of R76 test of the state. -/
def rxContext (s : State) : RxContext where
  st := s.st
  full := !decide (s.cmdLen < s.cfg.cmdCap)
  hi := s.hi
  csumAcc := s.csumAcc

/-- `operator_quit()` (R226). -/
def operatorQuit (s : State) : State := goto .quit s

/-- Reset (R42, R250): every state element at its value of R44. The configuration, what waits at the ports and what is
recorded are not the framer's state elements and stay (log entry 17). -/
def resetElements (s : State) : State :=
  { State.resetWith s.cfg with
    rx := s.rx, schedule := s.schedule, regsAnswers := s.regsAnswers, copyAnswers := s.copyAnswers,
    draws := s.draws, ports := s.ports, events := s.events }

/-- The transfers of a step that reset cuts short (R251): at most `k` of its output bytes, and its request where it was
issued. The byte the step took is taken. -/
def cutTransfers (k : Nat) (request : Bool) : List Transfer → List Transfer
  | [] => []
  | .rx b :: ts => .rx b :: cutTransfers k request ts
  | .tx b :: ts =>
    match k with
    | 0 => cutTransfers 0 request ts
    | k + 1 => .tx b :: cutTransfers k request ts
  | .regs a :: ts => if request then .regs a :: cutTransfers k request ts else cutTransfers k request ts
  | .copy p n a :: ts => if request then .copy p n a :: cutTransfers k request ts else cutTransfers k request ts

/-- The state after reset cut short the step from `s` that had come to `t` (R251). A request that was not issued leaves
its response with the environment; the draws that its step took stay taken (log entry 10). -/
def cutShort (k : Nat) (request : Bool) (s t : State) : State :=
  { resetElements s with
    rx := t.rx
    regsAnswers := if request then t.regsAnswers else s.regsAnswers
    copyAnswers := if request then t.copyAnswers else s.copyAnswers
    draws := t.draws
    ports := s.ports ++ cutTransfers k request (t.ports.drop s.ports.length) }

end Sys2Proof.Machine
end

