-- ==== Sys2Proof/Machine/Acknowledge.lean ====
section
/-! DEFINITION. The meanings of the rows of WAITACK and QUIT (41_framer_fsm.md sections 5 and 6). -/

namespace Sys2Proof.Machine

/-- ACK_RX (R134): the reply stays cached. -/
def execAckRx (s : State) : Host.Outcome State Fault Refusal :=
  .next (goto .init s)

/-- NAK_RX (R135): the cached reply again; without one a model must fault. -/
def execNakRx (s : State) : Host.Outcome State Fault Refusal :=
  if s.replyValid then .next (goto .waitAck (resendLast s)) else .fault .waitAckWithoutReply

/-- WAITACK_OTHER (R136): NAK; the byte is consumed, also where it is `'$'`. -/
def execWaitackOther (_b : Byte) (s : State) : Host.Outcome State Fault Refusal :=
  .next (goto .init (signal .ev6 (emit [chMinus] s)))

/-- QUIT_HALT (R137): no byte is taken, nothing is emitted or asked, nothing changes (log entry 13). -/
def execQuitHalt (s : State) : Host.Outcome State Fault Refusal :=
  .next s

end Sys2Proof.Machine
end

