-- ==== Sys2Proof/Machine/Operands.lean ====
section
/-! DEFINITION. The operand forms of R79: the fields of `m`. The declared checksum, R79's other form, is formed where
the byte is decoded (R128). The framer has no immediates and no register operands. -/

namespace Sys2Proof.Machine

/-- A hex field as a `w`-bit value (R111): a field with a non-hex byte is any `w`-bit value, the draw `d`. -/
def fieldValue (w d : Nat) (s : List Byte) : Nat := (hexval w s).getD (d % 2 ^ w)

/-- The address that `m` asks for (R170): passed on unchanged (R54, R59). -/
def memAddr (s : State) (addr : List Byte) : Nat := fieldValue s.cfg.addrW (Config.addrDraw s.draws) addr

/-- The length that `m` asks for, clamped after parsing (R170, R79); no comma is an empty length field. -/
def memLen (s : State) (len : Option (List Byte)) : Nat :=
  min (fieldValue s.cfg.addrW (Config.lenDraw s.draws) (len.getD [])) s.cfg.memCap

end Sys2Proof.Machine
end

