-- ==== Sys2Proof/Machine/Reply.lean ====
section
/-! DEFINITION. The reply formatter (43_reply_formatter.md): combinational, with no state. -/

namespace Sys2Proof.Machine

/-- `Frame(p)` (R200): the one trailer step shared by every reply. -/
def frame (p : List Byte) : List Byte := [chDollar] ++ p ++ [chHash] ++ hex2 (csum p)

/-- The register-dump payload (R203): each word as eight digits, no separator. -/
def registerDump (ws : List RegWord) : List Byte := ws.flatMap hex8

/-- The memory-dump payload (R204): each byte as two digits, in address order (R52). -/
def memoryDump (bs : List Byte) : List Byte := bs.flatMap hex2

/-- The qOffsets text (R163, R201). -/
def offsetsText (c : Config) : List Byte :=
  txtText ++ hexmin c.addrW c.textOff ++ txtData ++ hexmin c.addrW c.dataOff ++ txtBss ++ hexmin c.addrW c.bssOff

/-- The reply path (R131): send and cache the frame of `p`, then wait for its acknowledgement. -/
def sendReply (p : List Byte) (s : State) : State := goto .waitAck (send (frame p) s)

end Sys2Proof.Machine
end

