-- ==== Sys2Proof/Machine/Commands.lean ====
section
/-! DEFINITION. The meanings of the eight commands (42_dispatcher.md), each with the reply path of R131 or the quit path of
R132. A command runs within the CKSUM_LO_GOOD step, after its `'+'` (R130, R161; log entry 28). -/

namespace Sys2Proof.Machine

/-- `H` (R162): always `OK`. -/
def execSelectThread (_rest : List Byte) (s : State) : Host.Outcome State Fault Refusal :=
  .next (sendReply txtOK s)

/-- `qOffsets` (R163): the three configured offsets; no collaborator is asked. -/
def execQueryOffsets (s : State) : Host.Outcome State Fault Refusal :=
  .next (sendReply (offsetsText s.cfg) s)

/-- `q` with any other rest (R164). -/
def execQueryOther (_rest : List Byte) (s : State) : Host.Outcome State Fault Refusal :=
  .next (sendReply txtENS (signal .ev4 s))

/-- `?` (R166): always signal 9. -/
def execStopReason (_rest : List Byte) (s : State) : Host.Outcome State Fault Refusal :=
  .next (sendReply txtS09 s)

/-- `g` (R168): one `Regs()`, each word big-endian. -/
def execReadRegisters (_rest : List Byte) (s : State) : Host.Outcome State Fault Refusal :=
  match askRegs s with
  | .error f => .fault f
  | .ok (ws, s1) => .next (sendReply (registerDump ws) s1)

/-- What `m` does with the result of its copy (R170, R58). -/
def replyMemory (r : Option (List Byte)) (s : State) : State :=
  match r with
  | none => sendReply txtE02 (signal .ev5 s)
  | some bs => sendReply (memoryDump bs) s

/-- `m` (R170): one `SafeCopy` of the parsed address and the clamped length, also for length 0. -/
def execReadMemory (addr : List Byte) (len : Option (List Byte)) (s : State) : Host.Outcome State Fault Refusal :=
  match askCopy (memAddr s addr) (memLen s len) s with
  | .error f => .fault f
  | .ok (r, s1) => .next (replyMemory r s1)

/-- `k` (R172, R132): QUIT with no reply; the cached reply is not overwritten. -/
def execKill (_rest : List Byte) (s : State) : Host.Outcome State Fault Refusal :=
  .next (goto .quit s)

/-- Any other first byte, or an empty text (R174). -/
def execUnknown (_text : List Byte) (s : State) : Host.Outcome State Fault Refusal :=
  .next (sendReply txtE01 (signal .ev4 s))

/-- Run the command that the dispatcher selected (R161). -/
def runCommand (c : Command) (s : State) : Host.Outcome State Fault Refusal :=
  match c with
  | .selectThread r => execSelectThread r s
  | .queryOffsets => execQueryOffsets s
  | .queryOther r => execQueryOther r s
  | .stopReason r => execStopReason r s
  | .readRegisters r => execReadRegisters r s
  | .readMemory a l => execReadMemory a l s
  | .kill r => execKill r s
  | .unknown t => execUnknown t s

end Sys2Proof.Machine
end

