-- ==== Sys2Proof/Machine/Checksum.lean ====
section
/-! DEFINITION. The meanings of the rows of CKSUM1 and CKSUM2 (41_framer_fsm.md section 4). Decoding has compared the
declared checksum with `csum_acc` (R128). -/

namespace Sys2Proof.Machine

/-- CKSUM_HI (R126). -/
def execCksumHi (n : Nibble) (s : State) : Host.Outcome State Fault Refusal :=
  .next (goto .cksum2 (latchHi n s))

/-- CKSUM1_GARBAGE (R127): dropped, the state held (R141). -/
def execCksum1Garbage (_b : Byte) (s : State) : Host.Outcome State Fault Refusal :=
  .next (signal .ev2 s)

/-- CKSUM_LO_BAD (R129): NAK; nothing is dispatched and no collaborator is asked. -/
def execCksumLoBad (_n : Nibble) (s : State) : Host.Outcome State Fault Refusal :=
  .next (goto .init (signal .ev3 (emit [chMinus] s)))

/-- CKSUM_LO_GOOD (R130): ACK, then dispatch the stored payload. -/
def execCksumLoGood (_n : Nibble) (s : State) : Host.Outcome State Fault Refusal :=
  runCommand (decodeCommand (storedPayload s)) (emit [chPlus] s)

/-- CKSUM2_GARBAGE (R133, 90_conflicts.md C6): dropped, `hi` kept. -/
def execCksum2Garbage (_b : Byte) (s : State) : Host.Outcome State Fault Refusal :=
  .next (signal .ev2 s)

end Sys2Proof.Machine
end

