-- ==== Sys2Proof/Machine/Framing.lean ====
section
/-! DEFINITION. The meanings of the rows of INIT and CMDREAD (41_framer_fsm.md sections 2 and 3). Decoding has selected
the row by state, byte and guard, so a meaning does not test them again (log entry 19). -/

namespace Sys2Proof.Machine

/-- FRAME_START (R121). -/
def execFrameStart (s : State) : Host.Outcome State Fault Refusal :=
  .next (goto .cmdRead (beginCommand s))

/-- INIT_NOISE (R122): dropped, no NAK (R141). -/
def execInitNoise (_b : Byte) (s : State) : Host.Outcome State Fault Refusal :=
  .next (signal .ev1 s)

/-- FRAME_END (R125): `'#'` is never stored. -/
def execFrameEnd (s : State) : Host.Outcome State Fault Refusal :=
  .next (goto .cksum1 s)

/-- PAYLOAD_STORE (R123). -/
def execPayloadStore (b : Byte) (s : State) : Host.Outcome State Fault Refusal :=
  .next (goto .cmdRead (appendCommandByte b s))

/-- PAYLOAD_DROP (R124). -/
def execPayloadDrop (b : Byte) (s : State) : Host.Outcome State Fault Refusal :=
  .next (goto .cmdRead (appendCommandByte b s))

end Sys2Proof.Machine
end

