-- ==== Sys2Proof/Machine/Dispatch.lean ====
section
/-! DEFINITION. The meaning of every instruction: one arm per row of spec/opcode_table.json. -/

namespace Sys2Proof.Machine

/-- What an instruction does to the state (R121 to R137, R162 to R174). -/
def exec (i : Instr) (s : State) : Host.Outcome State Fault Refusal :=
  match i with
  | .frameStart => Sys2Proof.Machine.execFrameStart s
  | .initNoise b => Sys2Proof.Machine.execInitNoise b s
  | .frameEnd => Sys2Proof.Machine.execFrameEnd s
  | .payloadStore b => Sys2Proof.Machine.execPayloadStore b s
  | .payloadDrop b => Sys2Proof.Machine.execPayloadDrop b s
  | .cksumHi n => Sys2Proof.Machine.execCksumHi n s
  | .cksum1Garbage b => Sys2Proof.Machine.execCksum1Garbage b s
  | .cksumLoBad n => Sys2Proof.Machine.execCksumLoBad n s
  | .cksumLoGood n => Sys2Proof.Machine.execCksumLoGood n s
  | .cksum2Garbage b => Sys2Proof.Machine.execCksum2Garbage b s
  | .ackRx => Sys2Proof.Machine.execAckRx s
  | .nakRx => Sys2Proof.Machine.execNakRx s
  | .waitackOther b => Sys2Proof.Machine.execWaitackOther b s
  | .quitHalt => Sys2Proof.Machine.execQuitHalt s
  | .selectThread rest => Sys2Proof.Machine.execSelectThread rest s
  | .queryOffsets => Sys2Proof.Machine.execQueryOffsets s
  | .queryOther rest => Sys2Proof.Machine.execQueryOther rest s
  | .stopReason rest => Sys2Proof.Machine.execStopReason rest s
  | .readRegisters rest => Sys2Proof.Machine.execReadRegisters rest s
  | .readMemory addr len => Sys2Proof.Machine.execReadMemory addr len s
  | .kill rest => Sys2Proof.Machine.execKill rest s
  | .unknown text => Sys2Proof.Machine.execUnknown text s

end Sys2Proof.Machine
end

