-- ==== Sys2Proof/Machine/Flags.lean ====
section
/-! DEFINITION. The framer's flags and output levels (R31, R36, R37, R40). `reply_valid` is a state element, written by
`send` alone (R131, R140). The checksum comparison is computed and used in one step and not kept (R31). -/

namespace Sys2Proof.Machine

/-- The quit output (R40): 1 exactly when `st` = QUIT. -/
def quitOutput (s : State) : Bool := s.st == phaseCode .quit

/-- `rx_ready` between steps (R36): 1 unless `st` = QUIT. A State is always between steps (R14). -/
def rxReady (s : State) : Bool := s.st != phaseCode .quit

/-- `tx_valid` between steps (R37, R44): 0, since a step ends only when its output has been taken. -/
def txValid (_s : State) : Bool := false

end Sys2Proof.Machine
end

