-- ==== Sys2Proof/Machine/Sequencer.lean ====
section
/-! DEFINITION. What happens at a step boundary (R14, R226, R250, R251), with the meaning of an instruction as an
argument, and how an instruction of the opcode table is placed before the next step. -/

namespace Sys2Proof.Machine

/-- The next boundary: past the end of the schedule nothing arrives and no pin is asserted. -/
def nowBoundary (s : State) : Boundary := s.schedule.headD {}

/-- The state with the bytes of the boundary at the transport (R36, R268) and the boundary behind it. -/
def enterBoundary (s : State) : State :=
  { s with rx := s.rx ++ (nowBoundary s).arrive, schedule := s.schedule.tail }

/-- A state that a model must not go on from (R22, I3; R135, I4). -/
def illegal (s : State) : Option Fault :=
  match phaseOf s.st with
  | none => some .illegalState
  | some .waitAck => if s.replyValid then none else some .waitAckWithoutReply
  | some .init | some .cmdRead | some .cksum1 | some .cksum2 | some .quit => none

/-- One step with no reset: in QUIT nothing (R137); else the operator's quit, which precedes a waiting byte (R226); else
the row of the byte that `rx` offers (R76); else the framer waits, all state kept (R243). -/
def serve (run : Instr → State → Host.Outcome State Fault Refusal) (quitReq : Bool) (s : State) :
    Host.Outcome State Fault Refusal :=
  match illegal s with
  | some f => .fault f
  | none =>
    if quitOutput s then run .quitHalt s
    else if quitReq then .next (operatorQuit s)
    else
      match s.rx with
      | [] => .next s
      | b :: rest =>
        match decodeRx (rxContext s) b with
        | .ok i => run i (takeByte b rest s)
        | .error .illegalState => .fault .illegalState

/-- The outcome of a step from `s` that reset cut short (R251), from its outcome without reset. A step that was stuck
(R242) is left; a state that is no state of the framer is reset like any other. -/
def resetDuring (k : Nat) (request : Bool) (s : State) :
    Host.Outcome State Fault Refusal → Host.Outcome State Fault Refusal
  | .next t => .next (cutShort k request s t)
  | .fault (.regsStuck t) => .next (cutShort k request s t)
  | .fault (.copyStuck t) => .next (cutShort k request s t)
  | .fault .illegalState => .next (resetElements s)
  | .fault .waitAckWithoutReply => .next (resetElements s)
  | .refused r => .refused r

/-- A step at a boundary: reset first (log entry 18), then what `serve` says. -/
def boundaryStep (run : Instr → State → Host.Outcome State Fault Refusal) (now : Boundary) (s : State) :
    Host.Outcome State Fault Refusal :=
  match now.rst with
  | .released => serve run now.quitReq s
  | .asserted => .next (resetElements s)
  | .during k request => resetDuring k request s (serve run now.quitReq s)

/-- One step of a machine whose instructions mean `run`: a configuration outside R7 is refused. -/
def runStep (run : Instr → State → Host.Outcome State Fault Refusal) (s : State) :
    Host.Outcome State Fault Refusal :=
  if s.cfg.valid then boundaryStep run (nowBoundary s) (enterBoundary s)
  else .refused .badConfiguration

/-- `s` about to take byte `b` in state `ph`, with nothing else at the next boundary. WAITACK holds a reply (R135), the
empty one where `s` has none (log entry 22). -/
def placeByte (ph : Phase) (b : Byte) (s : State) : State :=
  let s1 := { goto ph s with rx := b :: s.rx, schedule := {} :: s.schedule }
  if ph = .waitAck ∧ s.replyValid = false then cacheReply (frame []) s1 else s1

/-- `s` about to take the last checksum digit of a frame whose payload is `t`, with nothing else at the next
boundary (log entry 22). -/
def placeCommand (t : List Byte) (s : State) : State :=
  { goto .cksum2 s with
    cmd := overwrite s.cmd 0 t, cmdLen := t.length, csumAcc := csum t, hi := (csum t).extractLsb' 4 4
    rx := hexdig ((csum t).extractLsb' 0 4) :: s.rx, schedule := {} :: s.schedule }

/-- `s` with the instruction of a table word as the next step's. -/
def placeTableWord (s : State) (nbits w : Nat) : State :=
  match tableBytes nbits w with
  | [] => s
  | [b] =>
    match tableContext b with
    | none => placeCommand [b] s
    | some ph => placeByte ph b s
  | t => placeCommand t s

end Sys2Proof.Machine
end

