-- ==== Sys2Proof/Machine/Step.lean ====
section
/-! DEFINITION. One step of the framer (R14), and the placing of an opcode-table word. -/

namespace Sys2Proof.Machine

/-- One step (R14): everything that happens from one boundary to the next. -/
def step (s : State) : Host.Outcome State Fault Refusal := runStep exec s

/-- `s` with the instruction of a table word where `step` takes its next one: a byte on `rx` in the state its row names,
or a command whose frame lacks only its last checksum digit (log entry 22). -/
def State.withFetchWord (s : State) (nbits w : Nat) : State := placeTableWord s nbits w

end Sys2Proof.Machine
end

