-- ==== Sys2Proof/Safety.lean ====
section
/-! DEFINITION. What the states of a run are like, in the terms the statements use: the invariants of R27 and R28, the
bounds of R20, and what a reply leaves behind. -/

namespace Sys2Proof.Machine

/-- `st` encodes one of the six states (R21, R22). -/
def PhaseOk (s : State) : Prop := (phaseOf s.st).isSome = true

/-- The write cursor is within the written part of the Command Buffer, and that within its capacity (R20, R23). -/
def CmdOk (s : State) : Prop := s.cmdLen ≤ s.cmd.length ∧ s.cmd.length ≤ s.cfg.cmdCap

/-- The same of the Reply Buffer (R20, R26). -/
def ReplyOk (s : State) : Prop := s.replyLen ≤ s.reply.length ∧ s.reply.length ≤ s.cfg.replyCap

/-- The invariant of the accumulator (R27). -/
def ChecksumOk (s : State) : Prop :=
  s.st = 1 ∨ s.st = 2 ∨ s.st = 3 → s.csumAcc = csum (storedPayload s)

/-- No stored payload contains `'#'` (R72, R125). -/
def PayloadOk (s : State) : Prop := chHash ∉ storedPayload s

/-- The printable set of R205: digits, `a` to `f`, the letters of the literal texts, `=` and `;`. -/
def printable (b : Byte) : Bool :=
  (0x30 ≤ b.toNat && b.toNat ≤ 0x39) || (0x61 ≤ b.toNat && b.toNat ≤ 0x66) ||
  [0x4F, 0x4B, 0x53, 0x45, 0x4E, 0x54, 0x65, 0x78, 0x74, 0x44, 0x61, 0x42, 0x73, 0x3D, 0x3B].contains b.toNat

/-- The invariant of the reply (R28). -/
def CacheOk (s : State) : Prop :=
  s.replyValid = true → ∃ p, cachedReply s = frame p ∧ p.all printable = true

/-- WAITACK is entered only with a reply (R135). -/
def AckOk (s : State) : Prop := s.st = 4 → s.replyValid = true

/-- What holds of every state of a run: a configuration that R7 admits, and all of the above. -/
structure RunInv (s : State) : Prop where
  cfg : s.cfg.valid = true
  phase : PhaseOk s
  cmd : CmdOk s
  reply : ReplyOk s
  checksum : ChecksumOk s
  payload : PayloadOk s
  cache : CacheOk s
  ack : AckOk s

/-- `s` after the reply bytes `wire` have left and been cached, awaiting their acknowledgement (R131, R140); nothing else
changes. -/
def repliedWith (wire : List Byte) (s : State) : State :=
  { s with
    st := 4, reply := wire ++ s.reply.drop wire.length, replyLen := wire.length, replyValid := true
    ports := s.ports ++ wire.map .tx }

/-- Whether a transfer is a request to a collaborator (R38, R39). -/
def isRequest : Transfer → Bool
  | .regs _ | .copy _ _ _ => true
  | .rx _ | .tx _ => false

/-- The collaborator requests made so far, in order. -/
def requests (s : State) : List Transfer := s.ports.filter isRequest

/-- The next boundary has no reset. -/
def NoReset (s : State) : Prop := (nowBoundary s).rst = .released

/-- The next boundary has neither a reset nor the operator's quit. -/
def NoPins (s : State) : Prop := (nowBoundary s).rst = .released ∧ (nowBoundary s).quitReq = false

/-- The coming responses of the collaborators are all free values. -/
def FreeAnswers (s : State) : Prop := s.regsAnswers = [] ∧ s.copyAnswers = []

/-- An outcome with the trace of error events left out (R222). -/
def withoutEvents : Host.Outcome State Fault Refusal → Host.Outcome State Fault Refusal
  | .next t => .next { t with events := [] }
  | .fault (.regsStuck t) => .fault (.regsStuck { t with events := [] })
  | .fault (.copyStuck t) => .fault (.copyStuck { t with events := [] })
  | .fault .illegalState => .fault .illegalState
  | .fault .waitAckWithoutReply => .fault .waitAckWithoutReply
  | .refused r => .refused r

end Sys2Proof.Machine
end

