-- ==== Sys2Proof/Certificates/Slice0/Obligations.lean ====
section
/-! DEFINITION. The statements about the framer, for the provers. Each names the rules of spec/ it formalises; `BitVec`
numerals for `st` are R22's encoding: 0 INIT, 1 CMDREAD, 2 CKSUM1, 3 CKSUM2, 4 WAITACK, 5 QUIT. -/

open Sys2Proof Sys2Proof.Machine

/-! ### Codec -/

/-- R100: `nib` is the three ranges and nothing else. That 22 bytes have a nibble and 234 have none is R101, which the
spec derives from R100. -/
def Obligations.NibMapsTheHexDigits : Prop :=
  (∀ (b : Byte) (n : Nibble), nib b = some n ↔
    (0x30 ≤ b.toNat ∧ b.toNat ≤ 0x39 ∧ n.toNat = b.toNat - 0x30) ∨
    (0x41 ≤ b.toNat ∧ b.toNat ≤ 0x46 ∧ n.toNat = b.toNat - 0x41 + 10) ∨
    (0x61 ≤ b.toNat ∧ b.toNat ≤ 0x66 ∧ n.toNat = b.toNat - 0x61 + 10)) ∧
  ((List.range 256).filter fun k => (nib (BitVec.ofNat 8 k)).isSome).length = 22 ∧
  ((List.range 256).filter fun k => (nib (BitVec.ofNat 8 k)).isNone).length = 234

/-- R103: the checksum is the sum of the byte values mod 256. -/
def Obligations.ChecksumIsTheSumMod256 : Prop :=
  ∀ s : List Byte, (csum s).toNat = (s.map BitVec.toNat).sum % 256

/-- R104 ("derived: from rule R103"): the laws of `csum`, and the errors it does not detect. -/
def Obligations.ChecksumLaws : Prop :=
  (∀ (s : List Byte) (b : Byte), (csum (s ++ [b])).toNat = ((csum s).toNat + b.toNat) % 256) ∧
  (∀ s u : List Byte, (csum (s ++ u)).toNat = ((csum s).toNat + (csum u).toNat) % 256) ∧
  (∀ s u : List Byte, s.Perm u → csum s = csum u) ∧
  (∀ (a b c : List Byte) (x y k : Byte), csum (a ++ (x + k) :: b ++ (y - k) :: c) = csum (a ++ x :: b ++ y :: c))

/-- R112 ("derived: from rules R100, R105, R108 and R109"): the codec round trip; a frame of the formatter declares
its payload's checksum. -/
def Obligations.HexDigitsRoundTrip : Prop :=
  (∀ n : Nibble, nib (hexdig n) = some n) ∧
  (∀ v : Byte, ∃ c d h l, hex2 v = [c, d] ∧ nib c = some h ∧ nib d = some l ∧ 16 * h.toNat + l.toNat = v.toNat) ∧
  (∀ p : List Byte, ∃ c d h l, frame p = [0x24] ++ p ++ [0x23, c, d] ∧ nib c = some h ∧ nib d = some l ∧
    declared h l = csum p)

/-- R106: a register word is its eight nibbles from `w[31:28]` down to `w[3:0]`, and its four bytes from `w[31:24]`
down to `w[7:0]`. -/
def Obligations.RegisterWordIsBigEndian : Prop :=
  ∀ w : RegWord,
    hex8 w = (List.range 8).map (fun i => hexdig (w.extractLsb' (28 - 4 * i) 4)) ∧
    hex8 w = (List.range 4).flatMap (fun i => hex2 (w.extractLsb' (24 - 8 * i) 8))

/-- R107: the digits of an offset are 1 to `w / 4` lowercase digits, without leading zeros, and read back as the
value. -/
def Obligations.OffsetDigitsAreMinimal : Prop :=
  ∀ w v : Nat, w % 4 = 0 → 8 ≤ w → v < 2 ^ w →
    1 ≤ (hexmin w v).length ∧ (hexmin w v).length ≤ w / 4 ∧
    (∀ d ∈ hexmin w v, ∃ n : Nibble, d = hexdig n) ∧
    (v = 0 → hexmin w v = [0x30]) ∧ (v ≠ 0 → (hexmin w v).head? ≠ some 0x30) ∧
    hexval w (hexmin w v) = some v

/-- R111: a hex field: 0 when empty, four bits shifted in per digit modulo `2^w`, excess high digits lost, and no
value exactly where a byte is no hex digit. That such a field is then a draw, cut to `w` bits, is log entry 9. -/
def Obligations.HexFieldValue : Prop :=
  (∀ w : Nat, hexval w [] = some 0) ∧
  (∀ (w : Nat) (s : List Byte) (c : Byte) (v : Nat) (n : Nibble), hexval w s = some v → nib c = some n →
    hexval w (s ++ [c]) = some ((v * 16 + n.toNat) % 2 ^ w)) ∧
  (∀ (w : Nat) (s t : List Byte), w % 4 = 0 → t.length = w / 4 → (∀ c ∈ s, (nib c).isSome) →
    hexval w (s ++ t) = hexval w t) ∧
  (∀ (w : Nat) (s : List Byte), hexval w s = none ↔ ∃ c ∈ s, nib c = none) ∧
  (∀ (w d : Nat) (s : List Byte), fieldValue w d s < 2 ^ w ∧ (hexval w s = none → fieldValue w d s = d % 2 ^ w) ∧
    ∀ v, hexval w s = some v → fieldValue w d s = v)

/-! ### Decoding and encoding -/

/-- R76: the row that applies to each byte in each state, and no row where `st` is none of the six (R22). -/
def Obligations.InputRowsOfTheTable : Prop :=
  ∀ (c : RxContext) (b x : Byte) (n : Nibble),
    (decodeRx c b = .ok .frameStart ↔ c.st = 0 ∧ b = 0x24) ∧
    (decodeRx c b = .ok (.initNoise x) ↔ c.st = 0 ∧ b ≠ 0x24 ∧ x = b) ∧
    (decodeRx c b = .ok .frameEnd ↔ c.st = 1 ∧ b = 0x23) ∧
    (decodeRx c b = .ok (.payloadStore x) ↔ c.st = 1 ∧ b ≠ 0x23 ∧ c.full = false ∧ x = b) ∧
    (decodeRx c b = .ok (.payloadDrop x) ↔ c.st = 1 ∧ b ≠ 0x23 ∧ c.full = true ∧ x = b) ∧
    (decodeRx c b = .ok (.cksumHi n) ↔ c.st = 2 ∧ nib b = some n) ∧
    (decodeRx c b = .ok (.cksum1Garbage x) ↔ c.st = 2 ∧ nib b = none ∧ x = b) ∧
    (decodeRx c b = .ok (.cksumLoBad n) ↔
      c.st = 3 ∧ nib b = some n ∧ 16 * c.hi.toNat + n.toNat ≠ c.csumAcc.toNat) ∧
    (decodeRx c b = .ok (.cksumLoGood n) ↔
      c.st = 3 ∧ nib b = some n ∧ 16 * c.hi.toNat + n.toNat = c.csumAcc.toNat) ∧
    (decodeRx c b = .ok (.cksum2Garbage x) ↔ c.st = 3 ∧ nib b = none ∧ x = b) ∧
    (decodeRx c b = .ok .ackRx ↔ c.st = 4 ∧ b = 0x2B) ∧
    (decodeRx c b = .ok .nakRx ↔ c.st = 4 ∧ b = 0x2D) ∧
    (decodeRx c b = .ok (.waitackOther x) ↔ c.st = 4 ∧ b ≠ 0x2B ∧ b ≠ 0x2D ∧ x = b) ∧
    (decodeRx c b = .ok .quitHalt ↔ c.st = 5) ∧
    (decodeRx c b = .error .illegalState ↔ c.st = 6 ∨ c.st = 7)

/-- Every byte in every state of the six is in exactly one row, with operands the row admits: decoding gives it, and
any well-formed row that applies and whose encoding is that byte is the one decoded. -/
def Obligations.EveryByteHasOneRow : Prop :=
  ∀ (c : RxContext) (b : Byte), (phaseOf c.st).isSome = true →
    ∃ i, decodeRx c b = .ok i ∧ i.wf = true ∧ appliesIn c i = true ∧ i.isCommand = false ∧
      ∀ j : Instr, j.wf = true → appliesIn c j = true → encode j = [b] → j = i

/-- R160: the text ends before the first 0x00 byte, or with the payload. -/
def Obligations.CommandTextEndsAtNul : Prop :=
  (∀ s : List Byte, 0x00 ∉ s → textOf s = s) ∧
  (∀ a r : List Byte, 0x00 ∉ a → textOf (a ++ 0x00 :: r) = a)

/-- R161, R77: which command a stored payload selects, from its text's first byte, with `qOffsets` matched exactly and
`m` split at its first comma (R78). -/
def Obligations.CommandSelection : Prop :=
  ∀ (s r : List Byte) (l : Option (List Byte)),
    (decodeCommand s = .selectThread r ↔ textOf s = 0x48 :: r) ∧
    (decodeCommand s = .queryOffsets ↔ textOf s = [0x71, 0x4F, 0x66, 0x66, 0x73, 0x65, 0x74, 0x73]) ∧
    (decodeCommand s = .queryOther r ↔
      textOf s = 0x71 :: r ∧ r ≠ [0x4F, 0x66, 0x66, 0x73, 0x65, 0x74, 0x73]) ∧
    (decodeCommand s = .stopReason r ↔ textOf s = 0x3F :: r) ∧
    (decodeCommand s = .readRegisters r ↔ textOf s = 0x67 :: r) ∧
    (decodeCommand s = .readMemory r l ↔
      0x2C ∉ r ∧ ((l = none ∧ textOf s = 0x6D :: r) ∨ ∃ k, l = some k ∧ textOf s = 0x6D :: (r ++ 0x2C :: k))) ∧
    (decodeCommand s = .kill r ↔ textOf s = 0x6B :: r) ∧
    (decodeCommand s = .unknown r ↔ textOf s = r ∧
      ∀ c, r.head? = some c → c ≠ 0x48 ∧ c ≠ 0x71 ∧ c ≠ 0x3F ∧ c ≠ 0x67 ∧ c ≠ 0x6D ∧ c ≠ 0x6B)

/-- For every well-formed input row that applies in a context, decoding its byte there gives it back. -/
def Obligations.InputRowDecodeOfEncode : Prop :=
  ∀ (c : RxContext) (i : Instr), i.wf = true → appliesIn c i = true → i ≠ .quitHalt →
    ∃ b, encode i = [b] ∧ decodeRx c b = .ok i

/-- For every well-formed command, decoding its text gives it back, whatever follows a 0x00 byte after it. -/
def Obligations.CommandDecodeOfEncode : Prop :=
  ∀ i : Instr, i.wf = true → i.isCommand = true →
    commandInstr (decodeCommand (encode i)) = i ∧
    ∀ r : List Byte, commandInstr (decodeCommand (encode i ++ 0x00 :: r)) = i

/-- For every stored payload, the decoded command is well formed and its encoding is the whole command text. -/
def Obligations.CommandEncodeOfDecode : Prop :=
  ∀ s : List Byte, encode (commandInstr (decodeCommand s)) = textOf s ∧
    (commandInstr (decodeCommand s)).wf = true ∧ (commandInstr (decodeCommand s)).isCommand = true

/-- A few words of the table, and texts of the spec's vectors, decode to the instruction they stand for. -/
def Obligations.SampleWordsDecode : Prop :=
  decodeTableWord 8 0x24 = some .frameStart ∧ decodeTableWord 8 0x23 = some .frameEnd ∧
  decodeTableWord 8 0x2B = some .ackRx ∧ decodeTableWord 8 0x2D = some .nakRx ∧
  decodeTableWord 8 0x48 = some (.selectThread []) ∧ decodeTableWord 8 0x71 = some (.queryOther []) ∧
  decodeTableWord 64 0x737465736666_4F71 = some .queryOffsets ∧
  decodeTableWord 8 0x3F = some (.stopReason []) ∧ decodeTableWord 8 0x67 = some (.readRegisters []) ∧
  decodeTableWord 32 0x342C306D = some (.readMemory [0x30] (some [0x34])) ∧
  decodeTableWord 8 0x6B = some (.kill []) ∧ decodeTableWord 8 0x5A = some (.initNoise 0x5A) ∧
  decodeCommand [0x5A] = .unknown [0x5A]

/-! ### The rows of INIT and CMDREAD -/

/-- R121, R138. -/
def Obligations.FrameStartOpensAFrame : Prop :=
  ∀ s : State, exec .frameStart s = .next { s with st := 1, cmdLen := 0, csumAcc := 0 }

/-- R122: only the event is signalled. -/
def Obligations.InitNoiseIsDropped : Prop :=
  ∀ (b : Byte) (s : State), exec (.initNoise b) s = .next { s with events := s.events ++ [.ev1] }

/-- R123, R139: the byte becomes the last of the stored payload and enters the checksum; the bytes above it stay
(R33). The premise on the cursor is part of `RunInv`, which every step keeps. -/
def Obligations.PayloadByteIsStored : Prop :=
  ∀ (b : Byte) (s : State), s.cmdLen < s.cfg.cmdCap → s.cmdLen ≤ s.cmd.length →
    ∃ t, exec (.payloadStore b) s = .next t ∧
      storedPayload t = storedPayload s ++ [b] ∧ t.cmd.drop (s.cmdLen + 1) = s.cmd.drop (s.cmdLen + 1) ∧
      t.csumAcc.toNat = (s.csumAcc.toNat + b.toNat) % 256 ∧
      t = { s with st := 1, cmd := t.cmd, cmdLen := s.cmdLen + 1, csumAcc := t.csumAcc }

/-- R124, R139: at capacity the byte is dropped and does not enter the checksum. That a cursor above the capacity
counts as full too is log entry 27. -/
def Obligations.PayloadByteIsDroppedWhenFull : Prop :=
  ∀ (b : Byte) (s : State), s.cfg.cmdCap ≤ s.cmdLen →
    exec (.payloadDrop b) s = .next { s with st := 1, events := s.events ++ [.ev7] }

/-- R125. -/
def Obligations.FrameEndAwaitsTheChecksum : Prop :=
  ∀ s : State, exec .frameEnd s = .next { s with st := 2 }

/-! ### The rows of CKSUM1 and CKSUM2 -/

/-- R126. -/
def Obligations.HighDigitIsLatched : Prop :=
  ∀ (n : Nibble) (s : State), exec (.cksumHi n) s = .next { s with st := 3, hi := n }

/-- R127, R133: a byte that is no hex digit is dropped, the state and `hi` kept. -/
def Obligations.MalformedChecksumDigitIsDropped : Prop :=
  ∀ (b : Byte) (s : State),
    exec (.cksum1Garbage b) s = .next { s with events := s.events ++ [.ev2] } ∧
    exec (.cksum2Garbage b) s = .next { s with events := s.events ++ [.ev2] }

/-- R129: NAK, INIT, and nothing else: no request, and the cached reply unchanged. -/
def Obligations.BadChecksumIsNaked : Prop :=
  ∀ (n : Nibble) (s : State), exec (.cksumLoBad n) s =
    .next { s with st := 0, ports := s.ports ++ [.tx 0x2D], events := s.events ++ [.ev3] }

/-- R130, R161: after the ACK, exactly the command that the stored payload selects runs, as exec runs it (log entry
28). -/
def Obligations.GoodChecksumRunsTheCommand : Prop :=
  ∀ (n : Nibble) (s : State), exec (.cksumLoGood n) s =
    exec (commandInstr (decodeCommand (storedPayload s))) { s with ports := s.ports ++ [.tx 0x2B] }

/-- R130, R131, R132, R62: a matched checksum is answered. The ACK leaves first, then at most one request is made,
then one reply frame leaves and is cached and WAITACK is entered; for `k` only the ACK leaves and QUIT is entered. The
collaborators' answers are free values here (R241; log entry 8). -/
def Obligations.GoodChecksumIsAnswered : Prop :=
  ∀ (n : Nibble) (s : State), FreeAnswers s →
    ((∃ r, decodeCommand (storedPayload s) = .kill r) ∧
      exec (.cksumLoGood n) s = .next { s with st := 5, ports := s.ports ++ [.tx 0x2B] }) ∨
    ((∀ r, decodeCommand (storedPayload s) ≠ .kill r) ∧
      ∃ t q p, exec (.cksumLoGood n) s = .next t ∧
        t.ports = s.ports ++ [.tx 0x2B] ++ q ++ (frame p).map .tx ∧ q.length ≤ 1 ∧ q.all isRequest = true ∧
        cachedReply t = frame p ∧
        t = { s with
          st := 4, reply := t.reply, replyLen := (frame p).length, replyValid := true
          draws := t.draws, ports := t.ports, events := t.events })

/-! ### The rows of WAITACK and QUIT -/

/-- R134: the reply stays cached. -/
def Obligations.AckReturnsToInit : Prop :=
  ∀ s : State, exec .ackRx s = .next { s with st := 0 }

/-- R135, R140: the cached bytes are sent again, nothing else; without a reply the model faults. -/
def Obligations.NakResendsTheCachedReply : Prop :=
  ∀ s : State,
    (s.replyValid = true → exec .nakRx s =
      .next { s with st := 4, ports := s.ports ++ (s.reply.take s.replyLen).map .tx }) ∧
    (s.replyValid = false → exec .nakRx s = .fault .waitAckWithoutReply)

/-- R136. -/
def Obligations.OutOfSyncByteIsNaked : Prop :=
  ∀ (b : Byte) (s : State), exec (.waitackOther b) s =
    .next { s with st := 0, ports := s.ports ++ [.tx 0x2D], events := s.events ++ [.ev6] }

/-- R137: nothing happens in QUIT. That this is a next state and not the end of the model's steps is log entry 13. -/
def Obligations.QuitHaltChangesNothing : Prop :=
  ∀ s : State, exec .quitHalt s = .next s

/-! ### The commands -/

/-- R162, R166: `H` replies `$OK#9a` and `?` replies `$S09#bc` (90_conflicts.md C1), whatever follows the selector. -/
def Obligations.FixedRepliesOfHAndStopReason : Prop :=
  ∀ (r : List Byte) (s : State),
    exec (.selectThread r) s = .next (repliedWith [0x24, 0x4F, 0x4B, 0x23, 0x39, 0x61] s) ∧
    exec (.stopReason r) s = .next (repliedWith [0x24, 0x53, 0x30, 0x39, 0x23, 0x62, 0x63] s)

/-- R164, R174: another `q` replies `$ENS#e6`, any other command `$E01#a6`; each signals EV4. -/
def Obligations.UnsupportedCommandsReplyENSOrE01 : Prop :=
  ∀ (r : List Byte) (s : State),
    exec (.queryOther r) s =
      .next (repliedWith [0x24, 0x45, 0x4E, 0x53, 0x23, 0x65, 0x36] { s with events := s.events ++ [.ev4] }) ∧
    exec (.unknown r) s =
      .next (repliedWith [0x24, 0x45, 0x30, 0x31, 0x23, 0x61, 0x36] { s with events := s.events ++ [.ev4] })

/-- R163: `Text=`, `;Data=`, `;Bss=` with the configured offsets; no request. -/
def Obligations.OffsetsQueryRepliesTheOffsets : Prop :=
  ∀ s : State, exec .queryOffsets s = .next (repliedWith (frame
    ([0x54, 0x65, 0x78, 0x74, 0x3D] ++ hexmin s.cfg.addrW s.cfg.textOff ++
     [0x3B, 0x44, 0x61, 0x74, 0x61, 0x3D] ++ hexmin s.cfg.addrW s.cfg.dataOff ++
     [0x3B, 0x42, 0x73, 0x73, 0x3D] ++ hexmin s.cfg.addrW s.cfg.bssOff)) s)

/-- R168: one `Regs()`, whose NREGS words leave as big-endian digits in order; the CPU that answers is the
environment's (R240). -/
def Obligations.ReadRegistersRepliesTheSnapshot : Prop :=
  ∀ (r : List Byte) (s : State) (cpu : Nat) (ws : List RegWord) (more : List RegsAnswer),
    s.regsAnswers = .words cpu ws :: more → ws.length = s.cfg.nregs →
    exec (.readRegisters r) s = .next (repliedWith (frame (ws.flatMap hex8))
      { s with regsAnswers := more, draws := s.draws + 1, ports := s.ports ++ [.regs (.words cpu ws)] }) ∧
    (ws.flatMap hex8).length = 8 * s.cfg.nregs

/-- R170, R52, R55: one `SafeCopy` of the parsed address and the clamped length, also for length 0; an `Ok` with
exactly that many bytes leaves as digit pairs in address order. A field with a non-hex byte is a draw (R111; log entry
9). -/
def Obligations.ReadMemoryRepliesTheBytes : Prop :=
  ∀ (a : List Byte) (l : Option (List Byte)) (s : State) (addr len : Nat) (bs : List Byte) (more : List CopyAnswer),
    addr = (hexval s.cfg.addrW a).getD (Config.addrDraw s.draws % 2 ^ s.cfg.addrW) →
    len = (hexval s.cfg.addrW (l.getD [])).getD (Config.lenDraw s.draws % 2 ^ s.cfg.addrW) →
    s.copyAnswers = .ok bs :: more → bs.length = min len s.cfg.memCap →
    exec (.readMemory a l) s = .next (repliedWith (frame (bs.flatMap hex2))
      { s with
        copyAnswers := more, draws := s.draws + 1
        ports := s.ports ++ [.copy addr (min len s.cfg.memCap) (.ok bs)] })

/-- R170, R58: a `Fault` answers `$E02#a7` and EV5; the framer goes on. -/
def Obligations.ReadMemoryFaultRepliesE02 : Prop :=
  ∀ (a : List Byte) (l : Option (List Byte)) (s : State) (more : List CopyAnswer),
    s.copyAnswers = .fault :: more →
    exec (.readMemory a l) s = .next (repliedWith [0x24, 0x45, 0x30, 0x32, 0x23, 0x61, 0x37]
      { s with
        copyAnswers := more, draws := s.draws + 1
        ports := s.ports ++ [.copy (memAddr s a) (memLen s l) .fault], events := s.events ++ [.ev5] })

/-- R241: where nothing fixes a collaborator's answer, `g` completes with some NREGS words of some CPU, and `m` with
`Fault` or with some bytes of the clamped length (free values, log entry 8). -/
def Obligations.CommandsCompleteWithFreeAnswers : Prop :=
  (∀ (r : List Byte) (s : State), s.regsAnswers = [] →
    ∃ cpu ws, ws.length = s.cfg.nregs ∧
      exec (.readRegisters r) s = .next (repliedWith (frame (ws.flatMap hex8))
        { s with draws := s.draws + 1, ports := s.ports ++ [.regs (.words cpu ws)] })) ∧
  (∀ (a : List Byte) (l : Option (List Byte)) (s : State), s.copyAnswers = [] →
    (exec (.readMemory a l) s = .next (repliedWith [0x24, 0x45, 0x30, 0x32, 0x23, 0x61, 0x37]
      { s with
        draws := s.draws + 1, ports := s.ports ++ [.copy (memAddr s a) (memLen s l) .fault]
        events := s.events ++ [.ev5] })) ∨
    ∃ bs, bs.length = memLen s l ∧
      exec (.readMemory a l) s = .next (repliedWith (frame (bs.flatMap hex2))
        { s with draws := s.draws + 1, ports := s.ports ++ [.copy (memAddr s a) (memLen s l) (.ok bs)] }))

/-- R242: a response outside its contract, or none at all, leaves the framer in the step after its request, with no
reply invented. That the stop is a fault that carries the state is log entry 15; that the request has advanced the
draws is log entry 10. -/
def Obligations.BrokenCollaboratorIsStuck : Prop :=
  (∀ (r : List Byte) (s : State) (x : RegsAnswer) (more : List RegsAnswer), s.regsAnswers = x :: more →
    (∀ cpu ws, x = .words cpu ws → ws.length ≠ s.cfg.nregs) →
    exec (.readRegisters r) s =
      .fault (.regsStuck
        { s with regsAnswers := more, draws := s.draws + 1, ports := s.ports ++ [.regs x] })) ∧
  (∀ (a : List Byte) (l : Option (List Byte)) (s : State) (x : CopyAnswer) (more : List CopyAnswer),
    s.copyAnswers = x :: more → x ≠ .fault → (∀ bs, x = .ok bs → bs.length ≠ memLen s l) →
    exec (.readMemory a l) s = .fault (.copyStuck
      { s with
        copyAnswers := more, draws := s.draws + 1
        ports := s.ports ++ [.copy (memAddr s a) (memLen s l) x] }))

/-- R172, R132: QUIT, with nothing emitted and the cached reply kept. -/
def Obligations.KillQuits : Prop :=
  ∀ (r : List Byte) (s : State), exec (.kill r) s = .next { s with st := 5 }

/-- R175 ("derived: from rules R162 to R174"): only `g` and `m` make a request, one each; no other row or command
makes one (but CKSUM_LO_GOOD, which runs a command). -/
def Obligations.OnlyRegistersAndMemoryAsk : Prop :=
  (∀ (i : Instr) (s t : State), exec i s = .next t → (∀ r, i ≠ .readRegisters r) → (∀ a l, i ≠ .readMemory a l) →
    (∀ n, i ≠ .cksumLoGood n) → requests t = requests s) ∧
  (∀ (r : List Byte) (s t : State), exec (.readRegisters r) s = .next t →
    ∃ x, requests t = requests s ++ [.regs x]) ∧
  (∀ (a : List Byte) (l : Option (List Byte)) (s t : State), exec (.readMemory a l) s = .next t →
    ∃ x, requests t = requests s ++ [.copy (memAddr s a) (memLen s l) x])

/-- R205, R206 ("derived: from rules R201 to R204"): every reply of a command is a frame of printable bytes that fits
the Reply Buffer, and is what leaves. -/
def Obligations.RepliesArePrintableAndFit : Prop :=
  ∀ (i : Instr) (s t : State), s.cfg.valid = true → i.isCommand = true → (∀ r, i ≠ .kill r) → exec i s = .next t →
    ∃ p, cachedReply t = frame p ∧ sent t = sent s ++ frame p ∧ p.all printable = true ∧
      (frame p).length ≤ s.cfg.replyCap ∧
      (frame p).length ≤ 4 + max (2 * s.cfg.memCap) (max (8 * s.cfg.nregs) (max (16 + 3 * s.cfg.addrW / 4) 3))

/-! ### Steps -/

/-- R14, R76: with no pin asserted, a legal state, and byte `b` first at the transport, a step takes `b` and is exec
of the row that `b` decodes to. -/
def Obligations.StepRunsTheDecodedRow : Prop :=
  ∀ (s : State) (b : Byte) (rest : List Byte) (i : Instr), s.cfg.valid = true → NoPins s →
    s.rx ++ (nowBoundary s).arrive = b :: rest → s.st ≠ 5 → (s.st = 4 → s.replyValid = true) →
    decodeRx ⟨s.st, !decide (s.cmdLen < s.cfg.cmdCap), s.hi, s.csumAcc⟩ b = .ok i →
    step s = exec i { s with rx := rest, schedule := s.schedule.tail, ports := s.ports ++ [.rx b] }

/-- R226: the operator's quit precedes a waiting byte, emits nothing and asks nothing; all other state elements stay.
The premises leave out the states of log entry 14. -/
def Obligations.OperatorQuitComesFirst : Prop :=
  ∀ s : State, s.cfg.valid = true → NoReset s → (nowBoundary s).quitReq = true →
    (phaseOf s.st).isSome = true → s.st ≠ 5 → (s.st = 4 → s.replyValid = true) →
    step s = .next { s with st := 5, rx := s.rx ++ (nowBoundary s).arrive, schedule := s.schedule.tail }

/-- R252, R137: in QUIT no byte is taken and `quit_req` is ignored; only reset leaves it. That a boundary in QUIT is a
next state is log entry 13. -/
def Obligations.QuitLastsUntilReset : Prop :=
  ∀ s : State, s.cfg.valid = true → s.st = 5 → NoReset s →
    step s = .next { s with rx := s.rx ++ (nowBoundary s).arrive, schedule := s.schedule.tail } ∧
    rxReady s = false ∧ quitOutput s = true

/-- R243: with no byte and no `quit_req` the framer waits, all state kept. That waiting is a next state is log entry
13. -/
def Obligations.WaitingKeepsAllState : Prop :=
  ∀ s : State, s.cfg.valid = true → NoPins s → s.rx = [] → (nowBoundary s).arrive = [] →
    (phaseOf s.st).isSome = true → (s.st = 4 → s.replyValid = true) →
    step s = .next { s with schedule := s.schedule.tail }

/-- R22, R135 (I3, I4): `st` = 6 or 7, or WAITACK without a reply, faults, at the moment that log entry 14 chooses. -/
def Obligations.IllegalStatesFault : Prop :=
  ∀ s : State, s.cfg.valid = true → NoReset s →
    (s.st = 6 ∨ s.st = 7 → step s = .fault .illegalState) ∧
    (s.st = 4 → s.replyValid = false → step s = .fault .waitAckWithoutReply)

/-- R7, I12: a configuration that breaks one of R7's constraints is refused. That REG_ORDER has NREGS names, that the
offsets have ADDR_W bits and that MEM_CAP is 128 is log entry 3; that every step refuses, at any boundary and before a
reset, is log entry 4. -/
def Obligations.BadConfigurationIsRefused : Prop :=
  ∀ s : State,
    (s.cfg.cmdCap < 512 ∨ s.cfg.memCap ≠ 128 ∨ s.cfg.nregs < 1 ∨ s.cfg.replyCap < 8 * s.cfg.nregs + 4 ∨
      s.cfg.addrW % 4 ≠ 0 ∨ s.cfg.addrW < 8 ∨ 64 < s.cfg.addrW ∨
      s.cfg.replyCap < 4 + max (2 * s.cfg.memCap) (max (8 * s.cfg.nregs) (16 + 3 * s.cfg.addrW / 4)) ∨
      s.cfg.regOrder.length ≠ s.cfg.nregs ∨ 2 ^ s.cfg.addrW ≤ s.cfg.textOff ∨ 2 ^ s.cfg.addrW ≤ s.cfg.dataOff ∨
      2 ^ s.cfg.addrW ≤ s.cfg.bssOff) →
    step s = .refused .badConfiguration

/-- R44: the reset value of every state element that has one, and the outputs after reset. -/
def Obligations.ResetLeavesTheStatedValues : Prop :=
  ∀ s : State,
    (resetElements s).st = 0 ∧ (resetElements s).cmdLen = 0 ∧ (resetElements s).csumAcc = 0 ∧
    (resetElements s).hi = 0 ∧ (resetElements s).replyLen = 0 ∧ (resetElements s).replyValid = false ∧
    quitOutput (resetElements s) = false ∧ rxReady (resetElements s) = true ∧ txValid (resetElements s) = false ∧
    State.reset = resetElements State.reset

/-- R250, R44: from any state, asserted `rst` sets every state element that R44 gives a value to that value, and emits
and asks nothing. What waits at the ports and the configuration stay (log entry 17); reset precedes the operator's
quit (log entry 18). -/
def Obligations.ResetSetsEveryElement : Prop :=
  ∀ s : State, s.cfg.valid = true → (nowBoundary s).rst = .asserted →
    ∃ t, step s = .next t ∧ t.st = 0 ∧ t.cmdLen = 0 ∧ t.csumAcc = 0 ∧ t.hi = 0 ∧ t.replyLen = 0 ∧
      t.replyValid = false ∧ quitOutput t = false ∧ rxReady t = true ∧ txValid t = false ∧
      t.ports = s.ports ∧ t.events = s.events ∧ t.cfg = s.cfg ∧ t.rx = s.rx ++ (nowBoundary s).arrive

/-- R251: a reset inside a step leaves a prefix of that step's output on `tx`, of any length, and the reset values
(log entry 16). -/
def Obligations.ResetInsideAStepCutsItsOutput : Prop :=
  ∀ (s : State) (k : Nat) (r : Bool) (u : State), s.cfg.valid = true → (nowBoundary s).rst = .during k r →
    step { s with schedule := { nowBoundary s with rst := .released } :: s.schedule.tail } = .next u →
    ∃ t out, step s = .next t ∧ sent u = sent s ++ out ∧ sent t = sent s ++ out.take k ∧
      (r = true → requests t = requests u) ∧ (r = false → requests t = requests s) ∧
      t.st = 0 ∧ t.cmdLen = 0 ∧ t.csumAcc = 0 ∧ t.hi = 0 ∧ t.replyLen = 0 ∧ t.replyValid = false

/-- R225 ("derived: from 41_framer_fsm.md rules R128 to R130 and 42_dispatcher.md rule R161"): a step signals at most
one event; EV4 and EV5 only where the row CKSUM_LO_GOOD runs. -/
def Obligations.StepSignalsAtMostOneEvent : Prop :=
  ∀ s t : State, step s = .next t →
    t.events = s.events ∨
    ∃ e, t.events = s.events ++ [e] ∧ (e = .ev4 ∨ e = .ev5 →
      ∃ b rest n, s.rx ++ (nowBoundary s).arrive = b :: rest ∧ decodeRx (rxContext s) b = .ok (.cksumLoGood n))

/-- R222: the trace of events changes nothing else of any step. -/
def Obligations.EventsChangeNothingElse : Prop :=
  ∀ (s : State) (es : List ErrorEvent), withoutEvents (step { s with events := es }) = withoutEvents (step s)

/-- R62, R63, R36: a step adds to the ports' record either nothing or one byte taken from `rx` and then its own output
and requests, which no byte taken interrupts. -/
def Obligations.StepOutputFollowsItsByte : Prop :=
  ∀ s t : State, step s = .next t →
    (t.ports = s.ports ∧ t.rx = s.rx ++ (nowBoundary s).arrive) ∨
    ∃ b d, t.ports = s.ports ++ .rx b :: d ∧ s.rx ++ (nowBoundary s).arrive = b :: t.rx ∧ ∀ c, .rx c ∉ d

/-- R32, R43: no step changes the configuration. -/
def Obligations.ConfigurationIsFixed : Prop :=
  ∀ s t : State, step s = .next t → t.cfg = s.cfg

/-- R226: "The only exit path is the `k` command or an explicit operator action". -/
def Obligations.OnlyKillOrOperatorQuits : Prop :=
  ∀ s t : State, step s = .next t → s.st ≠ 5 → t.st = 5 →
    (nowBoundary s).quitReq = true ∨
    ∃ b rest n r, s.rx ++ (nowBoundary s).arrive = b :: rest ∧ decodeRx (rxContext s) b = .ok (.cksumLoGood n) ∧
      decodeCommand (storedPayload s) = .kill r

/-! ### Invariants -/

/-- Every step keeps the invariant: R27 and R28, which the spec derives, the bounds of R20, no `'#'` stored, a reply
in WAITACK. -/
def Obligations.EveryStepKeepsTheInvariant : Prop :=
  ∀ s t : State, RunInv s → step s = .next t → RunInv t

/-- The invariant holds after reset in every configuration that R7 admits, and of the model's own reset state. -/
def Obligations.ResetMeetsTheInvariant : Prop :=
  (∀ c : Config, c.valid = true → RunInv (State.resetWith c)) ∧ RunInv State.reset

/-- From every state that meets the invariant, where the collaborators answer freely within their contract (log entry
8), a step answers a next state. Where a byte is taken this rests on the rules of its row, of which none stops the
framer (60_exceptions.md); that QUIT, where R14 has no step and R254 ends the run, and a boundary with no byte answer
a next state too is the model's choice, log entry 13. -/
def Obligations.FramerNeverStopsByItself : Prop :=
  ∀ s : State, RunInv s → FreeAnswers s → ∃ t, step s = .next t

/-! ### The properties of whole frames -/

/-- R142, which the spec derives from R121 to R130 and R112: a payload without `'#'` that fits, framed with its own
checksum, reaches ACK and dispatch. The bytes already wait at the transport, and no boundary to come is listed. -/
def Obligations.ChecksumRoundTripReachesDispatch : Prop :=
  ∀ (s : State) (p more : List Byte), s.cfg.valid = true → s.st = 0 → s.schedule = [] →
    0x23 ∉ p → p.length ≤ s.cfg.cmdCap → s.rx = 0x24 :: (p ++ 0x23 :: (hex2 (csum p) ++ more)) →
    ∃ (t : State) (b : Byte) (n : Nibble), Sys2Proof.core.run (p.length + 3) s = .next t ∧ t.rx = b :: more ∧
      storedPayload t = p ∧
      sent t = sent s ∧ decodeRx (rxContext t) b = .ok (.cksumLoGood n) ∧
      step t = exec (.cksumLoGood n) (takeByte b more t)

/-- R143 ("derived: from rules R127, R128, R129 and R133"): with any two hex digits that declare another value, the
same frame is NAKed, nothing is dispatched, and INIT is entered. The bytes already wait, as in the round trip. -/
def Obligations.ChecksumRejectionIsNaked : Prop :=
  ∀ (s : State) (p more : List Byte) (c d : Byte) (h l : Nibble), s.cfg.valid = true → s.st = 0 → s.schedule = [] →
    0x23 ∉ p → p.length ≤ s.cfg.cmdCap → nib c = some h → nib d = some l →
    16 * h.toNat + l.toNat ≠ (csum p).toNat → s.rx = 0x24 :: (p ++ 0x23 :: c :: d :: more) →
    ∃ t : State, Sys2Proof.core.run (p.length + 4) s = .next t ∧ t.st = 0 ∧ t.rx = more ∧
      sent t = sent s ++ [0x2D] ∧ requests t = requests s ∧ cachedReply t = cachedReply s

/-- R144 ("derived: from rules R134 and R135"): any number of `'-'` sends the cached reply that many times and stays
in WAITACK; one `'+'` then returns to INIT. The bytes already wait, as in the round trip. -/
def Obligations.RetransmissionIsIdempotent : Prop :=
  ∀ (s : State) (k : Nat) (more : List Byte), s.cfg.valid = true → s.st = 4 → s.replyValid = true →
    s.schedule = [] → s.rx = List.replicate k 0x2D ++ 0x2B :: more →
    ∃ t u : State, Sys2Proof.core.run k s = .next t ∧ t.st = 4 ∧
      sent t = sent s ++ (List.replicate k (cachedReply s)).flatten ∧ cachedReply t = cachedReply s ∧
      requests t = requests s ∧
      Sys2Proof.core.run (k + 1) s = .next u ∧ u.st = 0 ∧ u.rx = more ∧ sent u = sent t
end

