-- ==== Sys2Proof/Laws/Codec.lean ====
section
/-! SUPPORT. The small lemmas of the codec and of decoding. -/

namespace Sys2Proof

@[simp] theorem csum_nil : csum [] = 0 := rfl

@[simp] theorem csum_cons (b : Byte) (s : List Byte) : csum (b :: s) = b + csum s := rfl

@[simp] theorem hex2_length (v : Byte) : (hex2 v).length = 2 := rfl

@[simp] theorem hex8_length (w : RegWord) : (hex8 w).length = 8 := rfl

/-- A dump of bytes has two digits a byte (R204). -/
theorem flatMap_hex2_length (bs : List Byte) : (bs.flatMap hex2).length = 2 * bs.length := by
  induction bs with
  | nil => rfl
  | cons b bs ih => simp [ih]; omega

/-- A dump of words has eight digits a word (R203). -/
theorem flatMap_hex8_length (ws : List RegWord) : (ws.flatMap hex8).length = 8 * ws.length := by
  induction ws with
  | nil => rfl
  | cons w ws ih => simp [ih]; omega

theorem hexDigits_length_le (fuel v : Nat) : (hexDigits fuel v).length ≤ fuel := by
  induction fuel generalizing v with
  | zero => simp [hexDigits]
  | succ fuel ih =>
    have := ih (v / 16)
    unfold hexDigits
    split
    · simp
    · simp; omega

theorem hexmin_length_le (w v : Nat) : (hexmin w v).length ≤ w / 4 := hexDigits_length_le _ _

theorem phaseOf_phaseCode (ph : Phase) : phaseOf (phaseCode ph) = some ph := by
  cases ph; all_goals decide

theorem phaseCode_of_phaseOf {st : BitVec 3} {ph : Phase} (h : phaseOf st = some ph) : st = phaseCode ph := by
  revert st ph; decide

theorem textOf_of_isText {s : List Byte} (h : isText s = true) : textOf s = s := by
  simpa [textOf, isText, List.takeWhile_eq_self_iff] using h

/-- A command text holds no 0x00 (R160). -/
theorem isText_textOf (s : List Byte) : isText (textOf s) = true := by
  simp [isText, textOf]

end Sys2Proof
end

