-- ==== Sys2Proof/Laws/State.lean ====
section
/-! SUPPORT. One lemma per field per update of State, so that no proof unfolds a record update. -/

namespace Sys2Proof.Machine

variable (s : State)

@[simp] theorem goto_cfg (ph : Phase) : (goto ph s).cfg = s.cfg := rfl
@[simp] theorem goto_st (ph : Phase) : (goto ph s).st = phaseCode ph := rfl
@[simp] theorem goto_cmd (ph : Phase) : (goto ph s).cmd = s.cmd := rfl
@[simp] theorem goto_cmdLen (ph : Phase) : (goto ph s).cmdLen = s.cmdLen := rfl
@[simp] theorem goto_csumAcc (ph : Phase) : (goto ph s).csumAcc = s.csumAcc := rfl
@[simp] theorem goto_hi (ph : Phase) : (goto ph s).hi = s.hi := rfl
@[simp] theorem goto_reply (ph : Phase) : (goto ph s).reply = s.reply := rfl
@[simp] theorem goto_replyLen (ph : Phase) : (goto ph s).replyLen = s.replyLen := rfl
@[simp] theorem goto_replyValid (ph : Phase) : (goto ph s).replyValid = s.replyValid := rfl
@[simp] theorem goto_rx (ph : Phase) : (goto ph s).rx = s.rx := rfl
@[simp] theorem goto_schedule (ph : Phase) : (goto ph s).schedule = s.schedule := rfl
@[simp] theorem goto_regsAnswers (ph : Phase) : (goto ph s).regsAnswers = s.regsAnswers := rfl
@[simp] theorem goto_copyAnswers (ph : Phase) : (goto ph s).copyAnswers = s.copyAnswers := rfl
@[simp] theorem goto_draws (ph : Phase) : (goto ph s).draws = s.draws := rfl
@[simp] theorem goto_ports (ph : Phase) : (goto ph s).ports = s.ports := rfl
@[simp] theorem goto_events (ph : Phase) : (goto ph s).events = s.events := rfl

@[simp] theorem record_cfg (ts : List Transfer) : (record ts s).cfg = s.cfg := rfl
@[simp] theorem record_st (ts : List Transfer) : (record ts s).st = s.st := rfl
@[simp] theorem record_cmd (ts : List Transfer) : (record ts s).cmd = s.cmd := rfl
@[simp] theorem record_cmdLen (ts : List Transfer) : (record ts s).cmdLen = s.cmdLen := rfl
@[simp] theorem record_csumAcc (ts : List Transfer) : (record ts s).csumAcc = s.csumAcc := rfl
@[simp] theorem record_hi (ts : List Transfer) : (record ts s).hi = s.hi := rfl
@[simp] theorem record_reply (ts : List Transfer) : (record ts s).reply = s.reply := rfl
@[simp] theorem record_replyLen (ts : List Transfer) : (record ts s).replyLen = s.replyLen := rfl
@[simp] theorem record_replyValid (ts : List Transfer) : (record ts s).replyValid = s.replyValid := rfl
@[simp] theorem record_rx (ts : List Transfer) : (record ts s).rx = s.rx := rfl
@[simp] theorem record_schedule (ts : List Transfer) : (record ts s).schedule = s.schedule := rfl
@[simp] theorem record_regsAnswers (ts : List Transfer) : (record ts s).regsAnswers = s.regsAnswers := rfl
@[simp] theorem record_copyAnswers (ts : List Transfer) : (record ts s).copyAnswers = s.copyAnswers := rfl
@[simp] theorem record_draws (ts : List Transfer) : (record ts s).draws = s.draws := rfl
@[simp] theorem record_ports (ts : List Transfer) : (record ts s).ports = s.ports ++ ts := rfl
@[simp] theorem record_events (ts : List Transfer) : (record ts s).events = s.events := rfl

@[simp] theorem emit_cfg (bs : List Byte) : (emit bs s).cfg = s.cfg := rfl
@[simp] theorem emit_st (bs : List Byte) : (emit bs s).st = s.st := rfl
@[simp] theorem emit_cmd (bs : List Byte) : (emit bs s).cmd = s.cmd := rfl
@[simp] theorem emit_cmdLen (bs : List Byte) : (emit bs s).cmdLen = s.cmdLen := rfl
@[simp] theorem emit_csumAcc (bs : List Byte) : (emit bs s).csumAcc = s.csumAcc := rfl
@[simp] theorem emit_hi (bs : List Byte) : (emit bs s).hi = s.hi := rfl
@[simp] theorem emit_reply (bs : List Byte) : (emit bs s).reply = s.reply := rfl
@[simp] theorem emit_replyLen (bs : List Byte) : (emit bs s).replyLen = s.replyLen := rfl
@[simp] theorem emit_replyValid (bs : List Byte) : (emit bs s).replyValid = s.replyValid := rfl
@[simp] theorem emit_rx (bs : List Byte) : (emit bs s).rx = s.rx := rfl
@[simp] theorem emit_schedule (bs : List Byte) : (emit bs s).schedule = s.schedule := rfl
@[simp] theorem emit_regsAnswers (bs : List Byte) : (emit bs s).regsAnswers = s.regsAnswers := rfl
@[simp] theorem emit_copyAnswers (bs : List Byte) : (emit bs s).copyAnswers = s.copyAnswers := rfl
@[simp] theorem emit_draws (bs : List Byte) : (emit bs s).draws = s.draws := rfl
@[simp] theorem emit_ports (bs : List Byte) : (emit bs s).ports = s.ports ++ bs.map .tx := rfl
@[simp] theorem emit_events (bs : List Byte) : (emit bs s).events = s.events := rfl

@[simp] theorem signal_cfg (e : ErrorEvent) : (signal e s).cfg = s.cfg := rfl
@[simp] theorem signal_st (e : ErrorEvent) : (signal e s).st = s.st := rfl
@[simp] theorem signal_cmd (e : ErrorEvent) : (signal e s).cmd = s.cmd := rfl
@[simp] theorem signal_cmdLen (e : ErrorEvent) : (signal e s).cmdLen = s.cmdLen := rfl
@[simp] theorem signal_csumAcc (e : ErrorEvent) : (signal e s).csumAcc = s.csumAcc := rfl
@[simp] theorem signal_hi (e : ErrorEvent) : (signal e s).hi = s.hi := rfl
@[simp] theorem signal_reply (e : ErrorEvent) : (signal e s).reply = s.reply := rfl
@[simp] theorem signal_replyLen (e : ErrorEvent) : (signal e s).replyLen = s.replyLen := rfl
@[simp] theorem signal_replyValid (e : ErrorEvent) : (signal e s).replyValid = s.replyValid := rfl
@[simp] theorem signal_rx (e : ErrorEvent) : (signal e s).rx = s.rx := rfl
@[simp] theorem signal_schedule (e : ErrorEvent) : (signal e s).schedule = s.schedule := rfl
@[simp] theorem signal_regsAnswers (e : ErrorEvent) : (signal e s).regsAnswers = s.regsAnswers := rfl
@[simp] theorem signal_copyAnswers (e : ErrorEvent) : (signal e s).copyAnswers = s.copyAnswers := rfl
@[simp] theorem signal_draws (e : ErrorEvent) : (signal e s).draws = s.draws := rfl
@[simp] theorem signal_ports (e : ErrorEvent) : (signal e s).ports = s.ports := rfl
@[simp] theorem signal_events (e : ErrorEvent) : (signal e s).events = s.events ++ [e] := rfl

@[simp] theorem beginCommand_cfg : (beginCommand s).cfg = s.cfg := rfl
@[simp] theorem beginCommand_st : (beginCommand s).st = s.st := rfl
@[simp] theorem beginCommand_cmd : (beginCommand s).cmd = s.cmd := rfl
@[simp] theorem beginCommand_cmdLen : (beginCommand s).cmdLen = 0 := rfl
@[simp] theorem beginCommand_csumAcc : (beginCommand s).csumAcc = 0 := rfl
@[simp] theorem beginCommand_hi : (beginCommand s).hi = s.hi := rfl
@[simp] theorem beginCommand_reply : (beginCommand s).reply = s.reply := rfl
@[simp] theorem beginCommand_replyLen : (beginCommand s).replyLen = s.replyLen := rfl
@[simp] theorem beginCommand_replyValid : (beginCommand s).replyValid = s.replyValid := rfl
@[simp] theorem beginCommand_rx : (beginCommand s).rx = s.rx := rfl
@[simp] theorem beginCommand_schedule : (beginCommand s).schedule = s.schedule := rfl
@[simp] theorem beginCommand_regsAnswers : (beginCommand s).regsAnswers = s.regsAnswers := rfl
@[simp] theorem beginCommand_copyAnswers : (beginCommand s).copyAnswers = s.copyAnswers := rfl
@[simp] theorem beginCommand_draws : (beginCommand s).draws = s.draws := rfl
@[simp] theorem beginCommand_ports : (beginCommand s).ports = s.ports := rfl
@[simp] theorem beginCommand_events : (beginCommand s).events = s.events := rfl

@[simp] theorem storeByte_cfg (b : Byte) : (storeByte b s).cfg = s.cfg := rfl
@[simp] theorem storeByte_st (b : Byte) : (storeByte b s).st = s.st := rfl
@[simp] theorem storeByte_cmd (b : Byte) : (storeByte b s).cmd = overwrite s.cmd s.cmdLen [b] := rfl
@[simp] theorem storeByte_cmdLen (b : Byte) : (storeByte b s).cmdLen = s.cmdLen + 1 := rfl
@[simp] theorem storeByte_csumAcc (b : Byte) : (storeByte b s).csumAcc = s.csumAcc + b := rfl
@[simp] theorem storeByte_hi (b : Byte) : (storeByte b s).hi = s.hi := rfl
@[simp] theorem storeByte_reply (b : Byte) : (storeByte b s).reply = s.reply := rfl
@[simp] theorem storeByte_replyLen (b : Byte) : (storeByte b s).replyLen = s.replyLen := rfl
@[simp] theorem storeByte_replyValid (b : Byte) : (storeByte b s).replyValid = s.replyValid := rfl
@[simp] theorem storeByte_rx (b : Byte) : (storeByte b s).rx = s.rx := rfl
@[simp] theorem storeByte_schedule (b : Byte) : (storeByte b s).schedule = s.schedule := rfl
@[simp] theorem storeByte_regsAnswers (b : Byte) : (storeByte b s).regsAnswers = s.regsAnswers := rfl
@[simp] theorem storeByte_copyAnswers (b : Byte) : (storeByte b s).copyAnswers = s.copyAnswers := rfl
@[simp] theorem storeByte_draws (b : Byte) : (storeByte b s).draws = s.draws := rfl
@[simp] theorem storeByte_ports (b : Byte) : (storeByte b s).ports = s.ports := rfl
@[simp] theorem storeByte_events (b : Byte) : (storeByte b s).events = s.events := rfl

@[simp] theorem latchHi_cfg (n : Nibble) : (latchHi n s).cfg = s.cfg := rfl
@[simp] theorem latchHi_st (n : Nibble) : (latchHi n s).st = s.st := rfl
@[simp] theorem latchHi_cmd (n : Nibble) : (latchHi n s).cmd = s.cmd := rfl
@[simp] theorem latchHi_cmdLen (n : Nibble) : (latchHi n s).cmdLen = s.cmdLen := rfl
@[simp] theorem latchHi_csumAcc (n : Nibble) : (latchHi n s).csumAcc = s.csumAcc := rfl
@[simp] theorem latchHi_hi (n : Nibble) : (latchHi n s).hi = n := rfl
@[simp] theorem latchHi_reply (n : Nibble) : (latchHi n s).reply = s.reply := rfl
@[simp] theorem latchHi_replyLen (n : Nibble) : (latchHi n s).replyLen = s.replyLen := rfl
@[simp] theorem latchHi_replyValid (n : Nibble) : (latchHi n s).replyValid = s.replyValid := rfl
@[simp] theorem latchHi_rx (n : Nibble) : (latchHi n s).rx = s.rx := rfl
@[simp] theorem latchHi_schedule (n : Nibble) : (latchHi n s).schedule = s.schedule := rfl
@[simp] theorem latchHi_regsAnswers (n : Nibble) : (latchHi n s).regsAnswers = s.regsAnswers := rfl
@[simp] theorem latchHi_copyAnswers (n : Nibble) : (latchHi n s).copyAnswers = s.copyAnswers := rfl
@[simp] theorem latchHi_draws (n : Nibble) : (latchHi n s).draws = s.draws := rfl
@[simp] theorem latchHi_ports (n : Nibble) : (latchHi n s).ports = s.ports := rfl
@[simp] theorem latchHi_events (n : Nibble) : (latchHi n s).events = s.events := rfl

@[simp] theorem cacheReply_cfg (w : List Byte) : (cacheReply w s).cfg = s.cfg := rfl
@[simp] theorem cacheReply_st (w : List Byte) : (cacheReply w s).st = s.st := rfl
@[simp] theorem cacheReply_cmd (w : List Byte) : (cacheReply w s).cmd = s.cmd := rfl
@[simp] theorem cacheReply_cmdLen (w : List Byte) : (cacheReply w s).cmdLen = s.cmdLen := rfl
@[simp] theorem cacheReply_csumAcc (w : List Byte) : (cacheReply w s).csumAcc = s.csumAcc := rfl
@[simp] theorem cacheReply_hi (w : List Byte) : (cacheReply w s).hi = s.hi := rfl
@[simp] theorem cacheReply_reply (w : List Byte) : (cacheReply w s).reply = overwrite s.reply 0 w := rfl
@[simp] theorem cacheReply_replyLen (w : List Byte) : (cacheReply w s).replyLen = w.length := rfl
@[simp] theorem cacheReply_replyValid (w : List Byte) : (cacheReply w s).replyValid = true := rfl
@[simp] theorem cacheReply_rx (w : List Byte) : (cacheReply w s).rx = s.rx := rfl
@[simp] theorem cacheReply_schedule (w : List Byte) : (cacheReply w s).schedule = s.schedule := rfl
@[simp] theorem cacheReply_regsAnswers (w : List Byte) : (cacheReply w s).regsAnswers = s.regsAnswers := rfl
@[simp] theorem cacheReply_copyAnswers (w : List Byte) : (cacheReply w s).copyAnswers = s.copyAnswers := rfl
@[simp] theorem cacheReply_draws (w : List Byte) : (cacheReply w s).draws = s.draws := rfl
@[simp] theorem cacheReply_ports (w : List Byte) : (cacheReply w s).ports = s.ports := rfl
@[simp] theorem cacheReply_events (w : List Byte) : (cacheReply w s).events = s.events := rfl

@[simp] theorem send_cfg (w : List Byte) : (send w s).cfg = s.cfg := rfl
@[simp] theorem send_st (w : List Byte) : (send w s).st = s.st := rfl
@[simp] theorem send_cmd (w : List Byte) : (send w s).cmd = s.cmd := rfl
@[simp] theorem send_cmdLen (w : List Byte) : (send w s).cmdLen = s.cmdLen := rfl
@[simp] theorem send_csumAcc (w : List Byte) : (send w s).csumAcc = s.csumAcc := rfl
@[simp] theorem send_hi (w : List Byte) : (send w s).hi = s.hi := rfl
@[simp] theorem send_reply (w : List Byte) : (send w s).reply = overwrite s.reply 0 w := rfl
@[simp] theorem send_replyLen (w : List Byte) : (send w s).replyLen = w.length := rfl
@[simp] theorem send_replyValid (w : List Byte) : (send w s).replyValid = true := rfl
@[simp] theorem send_rx (w : List Byte) : (send w s).rx = s.rx := rfl
@[simp] theorem send_schedule (w : List Byte) : (send w s).schedule = s.schedule := rfl
@[simp] theorem send_regsAnswers (w : List Byte) : (send w s).regsAnswers = s.regsAnswers := rfl
@[simp] theorem send_copyAnswers (w : List Byte) : (send w s).copyAnswers = s.copyAnswers := rfl
@[simp] theorem send_draws (w : List Byte) : (send w s).draws = s.draws := rfl
@[simp] theorem send_ports (w : List Byte) : (send w s).ports = s.ports ++ w.map .tx := rfl
@[simp] theorem send_events (w : List Byte) : (send w s).events = s.events := rfl

@[simp] theorem resendLast_cfg : (resendLast s).cfg = s.cfg := rfl
@[simp] theorem resendLast_st : (resendLast s).st = s.st := rfl
@[simp] theorem resendLast_cmd : (resendLast s).cmd = s.cmd := rfl
@[simp] theorem resendLast_cmdLen : (resendLast s).cmdLen = s.cmdLen := rfl
@[simp] theorem resendLast_csumAcc : (resendLast s).csumAcc = s.csumAcc := rfl
@[simp] theorem resendLast_hi : (resendLast s).hi = s.hi := rfl
@[simp] theorem resendLast_reply : (resendLast s).reply = s.reply := rfl
@[simp] theorem resendLast_replyLen : (resendLast s).replyLen = s.replyLen := rfl
@[simp] theorem resendLast_replyValid : (resendLast s).replyValid = s.replyValid := rfl
@[simp] theorem resendLast_rx : (resendLast s).rx = s.rx := rfl
@[simp] theorem resendLast_schedule : (resendLast s).schedule = s.schedule := rfl
@[simp] theorem resendLast_regsAnswers : (resendLast s).regsAnswers = s.regsAnswers := rfl
@[simp] theorem resendLast_copyAnswers : (resendLast s).copyAnswers = s.copyAnswers := rfl
@[simp] theorem resendLast_draws : (resendLast s).draws = s.draws := rfl
@[simp] theorem resendLast_ports : (resendLast s).ports = s.ports ++ (cachedReply s).map .tx := rfl
@[simp] theorem resendLast_events : (resendLast s).events = s.events := rfl

@[simp] theorem tookRegs_cfg (a : RegsAnswer) : (tookRegs a s).cfg = s.cfg := rfl
@[simp] theorem tookRegs_st (a : RegsAnswer) : (tookRegs a s).st = s.st := rfl
@[simp] theorem tookRegs_cmd (a : RegsAnswer) : (tookRegs a s).cmd = s.cmd := rfl
@[simp] theorem tookRegs_cmdLen (a : RegsAnswer) : (tookRegs a s).cmdLen = s.cmdLen := rfl
@[simp] theorem tookRegs_csumAcc (a : RegsAnswer) : (tookRegs a s).csumAcc = s.csumAcc := rfl
@[simp] theorem tookRegs_hi (a : RegsAnswer) : (tookRegs a s).hi = s.hi := rfl
@[simp] theorem tookRegs_reply (a : RegsAnswer) : (tookRegs a s).reply = s.reply := rfl
@[simp] theorem tookRegs_replyLen (a : RegsAnswer) : (tookRegs a s).replyLen = s.replyLen := rfl
@[simp] theorem tookRegs_replyValid (a : RegsAnswer) : (tookRegs a s).replyValid = s.replyValid := rfl
@[simp] theorem tookRegs_rx (a : RegsAnswer) : (tookRegs a s).rx = s.rx := rfl
@[simp] theorem tookRegs_schedule (a : RegsAnswer) : (tookRegs a s).schedule = s.schedule := rfl
@[simp] theorem tookRegs_regsAnswers (a : RegsAnswer) : (tookRegs a s).regsAnswers = s.regsAnswers.tail := rfl
@[simp] theorem tookRegs_copyAnswers (a : RegsAnswer) : (tookRegs a s).copyAnswers = s.copyAnswers := rfl
@[simp] theorem tookRegs_draws (a : RegsAnswer) : (tookRegs a s).draws = s.draws + 1 := rfl
@[simp] theorem tookRegs_ports (a : RegsAnswer) : (tookRegs a s).ports = s.ports ++ [.regs a] := rfl
@[simp] theorem tookRegs_events (a : RegsAnswer) : (tookRegs a s).events = s.events := rfl

@[simp] theorem tookCopy_cfg (p n : Nat) (a : CopyAnswer) : (tookCopy p n a s).cfg = s.cfg := rfl
@[simp] theorem tookCopy_st (p n : Nat) (a : CopyAnswer) : (tookCopy p n a s).st = s.st := rfl
@[simp] theorem tookCopy_cmd (p n : Nat) (a : CopyAnswer) : (tookCopy p n a s).cmd = s.cmd := rfl
@[simp] theorem tookCopy_cmdLen (p n : Nat) (a : CopyAnswer) : (tookCopy p n a s).cmdLen = s.cmdLen := rfl
@[simp] theorem tookCopy_csumAcc (p n : Nat) (a : CopyAnswer) : (tookCopy p n a s).csumAcc = s.csumAcc := rfl
@[simp] theorem tookCopy_hi (p n : Nat) (a : CopyAnswer) : (tookCopy p n a s).hi = s.hi := rfl
@[simp] theorem tookCopy_reply (p n : Nat) (a : CopyAnswer) : (tookCopy p n a s).reply = s.reply := rfl
@[simp] theorem tookCopy_replyLen (p n : Nat) (a : CopyAnswer) : (tookCopy p n a s).replyLen = s.replyLen := rfl
@[simp] theorem tookCopy_replyValid (p n : Nat) (a : CopyAnswer) : (tookCopy p n a s).replyValid = s.replyValid := rfl
@[simp] theorem tookCopy_rx (p n : Nat) (a : CopyAnswer) : (tookCopy p n a s).rx = s.rx := rfl
@[simp] theorem tookCopy_schedule (p n : Nat) (a : CopyAnswer) : (tookCopy p n a s).schedule = s.schedule := rfl
@[simp] theorem tookCopy_regsAnswers (p n : Nat) (a : CopyAnswer) : (tookCopy p n a s).regsAnswers = s.regsAnswers := rfl
@[simp] theorem tookCopy_copyAnswers (p n : Nat) (a : CopyAnswer) : (tookCopy p n a s).copyAnswers = s.copyAnswers.tail := rfl
@[simp] theorem tookCopy_draws (p n : Nat) (a : CopyAnswer) : (tookCopy p n a s).draws = s.draws + 1 := rfl
@[simp] theorem tookCopy_ports (p n : Nat) (a : CopyAnswer) : (tookCopy p n a s).ports = s.ports ++ [.copy p n a] := rfl
@[simp] theorem tookCopy_events (p n : Nat) (a : CopyAnswer) : (tookCopy p n a s).events = s.events := rfl

@[simp] theorem takeByte_cfg (b : Byte) (r : List Byte) : (takeByte b r s).cfg = s.cfg := rfl
@[simp] theorem takeByte_st (b : Byte) (r : List Byte) : (takeByte b r s).st = s.st := rfl
@[simp] theorem takeByte_cmd (b : Byte) (r : List Byte) : (takeByte b r s).cmd = s.cmd := rfl
@[simp] theorem takeByte_cmdLen (b : Byte) (r : List Byte) : (takeByte b r s).cmdLen = s.cmdLen := rfl
@[simp] theorem takeByte_csumAcc (b : Byte) (r : List Byte) : (takeByte b r s).csumAcc = s.csumAcc := rfl
@[simp] theorem takeByte_hi (b : Byte) (r : List Byte) : (takeByte b r s).hi = s.hi := rfl
@[simp] theorem takeByte_reply (b : Byte) (r : List Byte) : (takeByte b r s).reply = s.reply := rfl
@[simp] theorem takeByte_replyLen (b : Byte) (r : List Byte) : (takeByte b r s).replyLen = s.replyLen := rfl
@[simp] theorem takeByte_replyValid (b : Byte) (r : List Byte) : (takeByte b r s).replyValid = s.replyValid := rfl
@[simp] theorem takeByte_rx (b : Byte) (r : List Byte) : (takeByte b r s).rx = r := rfl
@[simp] theorem takeByte_schedule (b : Byte) (r : List Byte) : (takeByte b r s).schedule = s.schedule := rfl
@[simp] theorem takeByte_regsAnswers (b : Byte) (r : List Byte) : (takeByte b r s).regsAnswers = s.regsAnswers := rfl
@[simp] theorem takeByte_copyAnswers (b : Byte) (r : List Byte) : (takeByte b r s).copyAnswers = s.copyAnswers := rfl
@[simp] theorem takeByte_draws (b : Byte) (r : List Byte) : (takeByte b r s).draws = s.draws := rfl
@[simp] theorem takeByte_ports (b : Byte) (r : List Byte) : (takeByte b r s).ports = s.ports ++ [.rx b] := rfl
@[simp] theorem takeByte_events (b : Byte) (r : List Byte) : (takeByte b r s).events = s.events := rfl

@[simp] theorem operatorQuit_cfg : (operatorQuit s).cfg = s.cfg := rfl
@[simp] theorem operatorQuit_st : (operatorQuit s).st = phaseCode .quit := rfl
@[simp] theorem operatorQuit_cmd : (operatorQuit s).cmd = s.cmd := rfl
@[simp] theorem operatorQuit_cmdLen : (operatorQuit s).cmdLen = s.cmdLen := rfl
@[simp] theorem operatorQuit_csumAcc : (operatorQuit s).csumAcc = s.csumAcc := rfl
@[simp] theorem operatorQuit_hi : (operatorQuit s).hi = s.hi := rfl
@[simp] theorem operatorQuit_reply : (operatorQuit s).reply = s.reply := rfl
@[simp] theorem operatorQuit_replyLen : (operatorQuit s).replyLen = s.replyLen := rfl
@[simp] theorem operatorQuit_replyValid : (operatorQuit s).replyValid = s.replyValid := rfl
@[simp] theorem operatorQuit_rx : (operatorQuit s).rx = s.rx := rfl
@[simp] theorem operatorQuit_schedule : (operatorQuit s).schedule = s.schedule := rfl
@[simp] theorem operatorQuit_regsAnswers : (operatorQuit s).regsAnswers = s.regsAnswers := rfl
@[simp] theorem operatorQuit_copyAnswers : (operatorQuit s).copyAnswers = s.copyAnswers := rfl
@[simp] theorem operatorQuit_draws : (operatorQuit s).draws = s.draws := rfl
@[simp] theorem operatorQuit_ports : (operatorQuit s).ports = s.ports := rfl
@[simp] theorem operatorQuit_events : (operatorQuit s).events = s.events := rfl

@[simp] theorem enterBoundary_cfg : (enterBoundary s).cfg = s.cfg := rfl
@[simp] theorem enterBoundary_st : (enterBoundary s).st = s.st := rfl
@[simp] theorem enterBoundary_cmd : (enterBoundary s).cmd = s.cmd := rfl
@[simp] theorem enterBoundary_cmdLen : (enterBoundary s).cmdLen = s.cmdLen := rfl
@[simp] theorem enterBoundary_csumAcc : (enterBoundary s).csumAcc = s.csumAcc := rfl
@[simp] theorem enterBoundary_hi : (enterBoundary s).hi = s.hi := rfl
@[simp] theorem enterBoundary_reply : (enterBoundary s).reply = s.reply := rfl
@[simp] theorem enterBoundary_replyLen : (enterBoundary s).replyLen = s.replyLen := rfl
@[simp] theorem enterBoundary_replyValid : (enterBoundary s).replyValid = s.replyValid := rfl
@[simp] theorem enterBoundary_rx : (enterBoundary s).rx = s.rx ++ (nowBoundary s).arrive := rfl
@[simp] theorem enterBoundary_schedule : (enterBoundary s).schedule = s.schedule.tail := rfl
@[simp] theorem enterBoundary_regsAnswers : (enterBoundary s).regsAnswers = s.regsAnswers := rfl
@[simp] theorem enterBoundary_copyAnswers : (enterBoundary s).copyAnswers = s.copyAnswers := rfl
@[simp] theorem enterBoundary_draws : (enterBoundary s).draws = s.draws := rfl
@[simp] theorem enterBoundary_ports : (enterBoundary s).ports = s.ports := rfl
@[simp] theorem enterBoundary_events : (enterBoundary s).events = s.events := rfl

@[simp] theorem sendReply_cfg (p : List Byte) : (sendReply p s).cfg = s.cfg := rfl
@[simp] theorem sendReply_st (p : List Byte) : (sendReply p s).st = phaseCode .waitAck := rfl
@[simp] theorem sendReply_cmd (p : List Byte) : (sendReply p s).cmd = s.cmd := rfl
@[simp] theorem sendReply_cmdLen (p : List Byte) : (sendReply p s).cmdLen = s.cmdLen := rfl
@[simp] theorem sendReply_csumAcc (p : List Byte) : (sendReply p s).csumAcc = s.csumAcc := rfl
@[simp] theorem sendReply_hi (p : List Byte) : (sendReply p s).hi = s.hi := rfl
@[simp] theorem sendReply_reply (p : List Byte) : (sendReply p s).reply = overwrite s.reply 0 (frame p) := rfl
@[simp] theorem sendReply_replyLen (p : List Byte) : (sendReply p s).replyLen = (frame p).length := rfl
@[simp] theorem sendReply_replyValid (p : List Byte) : (sendReply p s).replyValid = true := rfl
@[simp] theorem sendReply_rx (p : List Byte) : (sendReply p s).rx = s.rx := rfl
@[simp] theorem sendReply_schedule (p : List Byte) : (sendReply p s).schedule = s.schedule := rfl
@[simp] theorem sendReply_regsAnswers (p : List Byte) : (sendReply p s).regsAnswers = s.regsAnswers := rfl
@[simp] theorem sendReply_copyAnswers (p : List Byte) : (sendReply p s).copyAnswers = s.copyAnswers := rfl
@[simp] theorem sendReply_draws (p : List Byte) : (sendReply p s).draws = s.draws := rfl
@[simp] theorem sendReply_ports (p : List Byte) : (sendReply p s).ports = s.ports ++ (frame p).map .tx := rfl
@[simp] theorem sendReply_events (p : List Byte) : (sendReply p s).events = s.events := rfl

@[simp] theorem resetElements_cfg : (resetElements s).cfg = s.cfg := rfl
@[simp] theorem resetElements_st : (resetElements s).st = phaseCode .init := rfl
@[simp] theorem resetElements_cmd : (resetElements s).cmd = [] := rfl
@[simp] theorem resetElements_cmdLen : (resetElements s).cmdLen = 0 := rfl
@[simp] theorem resetElements_csumAcc : (resetElements s).csumAcc = 0 := rfl
@[simp] theorem resetElements_hi : (resetElements s).hi = 0 := rfl
@[simp] theorem resetElements_reply : (resetElements s).reply = [] := rfl
@[simp] theorem resetElements_replyLen : (resetElements s).replyLen = 0 := rfl
@[simp] theorem resetElements_replyValid : (resetElements s).replyValid = false := rfl
@[simp] theorem resetElements_rx : (resetElements s).rx = s.rx := rfl
@[simp] theorem resetElements_schedule : (resetElements s).schedule = s.schedule := rfl
@[simp] theorem resetElements_regsAnswers : (resetElements s).regsAnswers = s.regsAnswers := rfl
@[simp] theorem resetElements_copyAnswers : (resetElements s).copyAnswers = s.copyAnswers := rfl
@[simp] theorem resetElements_draws : (resetElements s).draws = s.draws := rfl
@[simp] theorem resetElements_ports : (resetElements s).ports = s.ports := rfl
@[simp] theorem resetElements_events : (resetElements s).events = s.events := rfl

end Sys2Proof.Machine
end

