-- ==== Sys2Proof/Laws/Ops.lean ====
section
/-! SUPPORT. One lemma per shared operation that says what it can do. -/

namespace Sys2Proof.Machine

theorem overwrite_length {buf : List Byte} {i : Nat} (new : List Byte) (h : i ≤ buf.length) :
    (overwrite buf i new).length = max buf.length (i + new.length) := by
  simp [overwrite]; omega

/-- After a write at `i`, what ends at the write's end is what ended at `i`, and then the new bytes. -/
theorem overwrite_take {buf : List Byte} {i : Nat} (new : List Byte) (h : i ≤ buf.length) :
    (overwrite buf i new).take (i + new.length) = buf.take i ++ new := by
  simp [overwrite, List.take_append, h]

@[simp] theorem overwrite_zero (buf new : List Byte) : overwrite buf 0 new = new ++ buf.drop new.length := by
  simp [overwrite]

theorem appendCommandByte_room {s : State} (b : Byte) (h : s.cmdLen < s.cfg.cmdCap) :
    appendCommandByte b s = storeByte b s := if_pos h

theorem appendCommandByte_full {s : State} (b : Byte) (h : ¬ s.cmdLen < s.cfg.cmdCap) :
    appendCommandByte b s = signal .ev7 s := if_neg h

/-- A stored byte is the last of the stored payload (R139). -/
theorem storedPayload_storeByte {s : State} (b : Byte) (h : s.cmdLen ≤ s.cmd.length) :
    storedPayload (storeByte b s) = storedPayload s ++ [b] := overwrite_take [b] h

@[simp] theorem storedPayload_beginCommand (s : State) : storedPayload (beginCommand s) = [] := by
  simp [storedPayload]

/-- What is cached is what is resent (R140). -/
@[simp] theorem cachedReply_cacheReply (w : List Byte) (s : State) : cachedReply (cacheReply w s) = w := by
  simp [cachedReply]

@[simp] theorem cachedReply_sendReply (p : List Byte) (s : State) : cachedReply (sendReply p s) = frame p := by
  simp [cachedReply]

@[simp] theorem frame_length (p : List Byte) : (frame p).length = p.length + 4 := by
  simp [frame]

@[simp] theorem drawRegs_length (n k : Nat) : (drawRegs n k).length = n := by simp [drawRegs]

theorem drawCopy_length {n k : Nat} {bs : List Byte} (h : drawCopy n k = some bs) : bs.length = n := by
  unfold drawCopy at h
  split at h
  · cases h
  · cases h; simp

theorem regsReply_eq_some {n : Nat} {a : RegsAnswer} {ws : List RegWord} (h : regsReply n a = some ws) :
    ws.length = n ∧ ∃ cpu, a = .words cpu ws := by
  cases a with
  | silent => cases h
  | words cpu v =>
    simp only [regsReply] at h
    split at h
    · cases h; exact ⟨by assumption, cpu, rfl⟩
    · cases h

theorem copyReply_eq_some {n : Nat} {a : CopyAnswer} {r : Option (List Byte)} (h : copyReply n a = some r) :
    a = copyAnswerOf r ∧ ∀ bs, r = some bs → bs.length = n := by
  cases a with
  | silent => cases h
  | fault => cases h; exact ⟨rfl, fun _ h => by cases h⟩
  | ok v =>
    simp only [copyReply] at h
    split at h
    · cases h; exact ⟨rfl, fun _ h => by cases h; assumption⟩
    · cases h

/-- A `Regs()` that is answered gives NREGS words of some CPU and makes that one request. -/
theorem askRegs_ok {s t : State} {ws : List RegWord} (h : askRegs s = .ok (ws, t)) :
    ws.length = s.cfg.nregs ∧ ∃ cpu, t = tookRegs (.words cpu ws) s := by
  unfold askRegs at h
  split at h
  · cases h; exact ⟨by simp, _, rfl⟩
  · split at h
    · cases h
      obtain ⟨hl, cpu, rfl⟩ := regsReply_eq_some ‹_›
      exact ⟨hl, cpu, rfl⟩
    · cases h

/-- A `Regs()` that is not answered within its contract leaves the framer after the request. -/
theorem askRegs_error {s : State} {f : Fault} (h : askRegs s = .error f) :
    ∃ a rest, s.regsAnswers = a :: rest ∧ regsReply s.cfg.nregs a = none ∧ f = .regsStuck (tookRegs a s) := by
  unfold askRegs at h
  split at h
  · cases h
  · split at h
    · cases h
    · cases h; exact ⟨_, _, ‹_›, ‹_›, rfl⟩

/-- A `SafeCopy` that is answered gives `Fault` or exactly `n` bytes and makes that one request. -/
theorem askCopy_ok {p n : Nat} {s t : State} {r : Option (List Byte)} (h : askCopy p n s = .ok (r, t)) :
    (∀ bs, r = some bs → bs.length = n) ∧ t = tookCopy p n (copyAnswerOf r) s := by
  unfold askCopy at h
  split at h
  · cases h; exact ⟨fun _ => drawCopy_length, rfl⟩
  · split at h
    · cases h
      obtain ⟨rfl, hl⟩ := copyReply_eq_some ‹_›
      exact ⟨hl, rfl⟩
    · cases h

/-- A `SafeCopy` that is not answered within its contract leaves the framer after the request. -/
theorem askCopy_error {p n : Nat} {s : State} {f : Fault} (h : askCopy p n s = .error f) :
    ∃ a rest, s.copyAnswers = a :: rest ∧ copyReply n a = none ∧ f = .copyStuck (tookCopy p n a s) := by
  unfold askCopy at h
  split at h
  · cases h
  · split at h
    · cases h
    · cases h; exact ⟨_, _, ‹_›, ‹_›, rfl⟩

@[simp] theorem resetElements_storedPayload (s : State) : storedPayload (resetElements s) = [] := rfl

theorem cutTransfers_append_rx (k : Nat) (r : Bool) (b : Byte) (ts : List Transfer) :
    cutTransfers k r (.rx b :: ts) = .rx b :: cutTransfers k r ts := rfl

end Sys2Proof.Machine
end

