-- ==== Sys2Proof/Laws/Step.lean ====
section
/-! SUPPORT. What a step can do: one inversion lemma for each part of it. -/

namespace Sys2Proof.Machine

/-- A legal state encodes one of the six states, and in WAITACK it holds a reply. -/
theorem illegal_eq_none {s : State} (h : illegal s = none) :
    ∃ ph, s.st = phaseCode ph ∧ (ph = .waitAck → s.replyValid = true) := by
  unfold illegal at h
  split at h
  · cases h
  · rename_i hp
    split at h
    · exact ⟨.waitAck, phaseCode_of_phaseOf hp, fun _ => ‹_›⟩
    · cases h
  all_goals exact ⟨_, phaseCode_of_phaseOf ‹_›, fun h => by cases h⟩

/-- A command answers by the arm of exec that its instruction has. -/
theorem runCommand_eq_exec (c : Command) (s : State) : runCommand c s = exec (commandInstr c) s := by
  cases c <;> rfl

/-- What a step without reset does where it goes on: QUIT halts, the operator quits, the framer waits, or the decoded
row runs. -/
theorem serve_next {run : Instr → State → Host.Outcome State Fault Refusal} {q : Bool} {s t : State}
    (h : serve run q s = .next t) :
    illegal s = none ∧
    ((s.st = phaseCode .quit ∧ run .quitHalt s = .next t) ∨
     (s.st ≠ phaseCode .quit ∧ q = true ∧ t = operatorQuit s) ∨
     (s.st ≠ phaseCode .quit ∧ q = false ∧ s.rx = [] ∧ t = s) ∨
     (s.st ≠ phaseCode .quit ∧ q = false ∧ ∃ b rest i, s.rx = b :: rest ∧ decodeRx (rxContext s) b = .ok i ∧
        run i (takeByte b rest s) = .next t)) := by
  unfold serve at h
  split at h
  · cases h
  · refine ⟨‹_›, ?_⟩
    by_cases hq : s.st = phaseCode .quit
    · exact .inl ⟨hq, by simpa [quitOutput, hq] using h⟩
    · simp only [quitOutput, beq_iff_eq, hq, if_false] at h
      split at h
      · cases h; exact .inr (.inl ⟨hq, ‹_›, rfl⟩)
      · have hqf : q = false := by simpa using ‹¬ q = true›
        split at h
        · cases h; exact .inr (.inr (.inl ⟨hq, hqf, ‹_›, rfl⟩))
        · split at h
          · exact .inr (.inr (.inr ⟨hq, hqf, _, _, _, ‹_›, ‹_›, h⟩))
          · cases h

/-- A step with no reset is what `serve` says of the boundary. -/
theorem step_of_noReset {s : State} (hc : s.cfg.valid = true) (hr : NoReset s) :
    step s = serve exec (nowBoundary s).quitReq (enterBoundary s) := by
  unfold NoReset at hr
  simp only [step, runStep, hc, if_true, boundaryStep, hr]

/-- What a step does where it goes on: `serve`, a reset at the boundary, or a reset that cuts the step short or finds no
state to go on from. -/
theorem step_next {s t : State} (h : step s = .next t) :
    s.cfg.valid = true ∧
    (((nowBoundary s).rst = .released ∧ serve exec (nowBoundary s).quitReq (enterBoundary s) = .next t) ∨
     t = resetElements (enterBoundary s) ∨
     ∃ k r u, (nowBoundary s).rst = .during k r ∧ t = cutShort k r (enterBoundary s) u) := by
  by_cases hc : s.cfg.valid = true
  · refine ⟨hc, ?_⟩
    simp only [step, runStep, hc, if_true, boundaryStep] at h
    split at h
    · exact .inl ⟨‹_›, h⟩
    · cases h; exact .inr (.inl rfl)
    · revert h
      cases serve exec (nowBoundary s).quitReq (enterBoundary s) with
      | next u => intro h; cases h; exact .inr (.inr ⟨_, _, u, ‹_›, rfl⟩)
      | refused r => intro h; cases h
      | fault f =>
        cases f with
        | illegalState => intro h; cases h; exact .inr (.inl rfl)
        | waitAckWithoutReply => intro h; cases h; exact .inr (.inl rfl)
        | regsStuck u => intro h; cases h; exact .inr (.inr ⟨_, _, u, ‹_›, rfl⟩)
        | copyStuck u => intro h; cases h; exact .inr (.inr ⟨_, _, u, ‹_›, rfl⟩)
  · simp [step, runStep, hc] at h

end Sys2Proof.Machine
end

