-- ==== Sys2Proof/Laws/Exec.lean ====
section
/-! SUPPORT. What an instruction leaves unchanged where it answers a next state, and what reset cuts out of a step. -/

namespace Sys2Proof.Machine

@[simp] theorem txByte_rx (b : Byte) : txByte (.rx b) = none := rfl
@[simp] theorem txByte_tx (b : Byte) : txByte (.tx b) = some b := rfl
@[simp] theorem txByte_regs (a : RegsAnswer) : txByte (.regs a) = none := rfl
@[simp] theorem txByte_copy (p n : Nat) (a : CopyAnswer) : txByte (.copy p n a) = none := rfl
@[simp] theorem isRequest_rx (b : Byte) : isRequest (.rx b) = false := rfl
@[simp] theorem isRequest_tx (b : Byte) : isRequest (.tx b) = false := rfl
@[simp] theorem isRequest_regs (a : RegsAnswer) : isRequest (.regs a) = true := rfl
@[simp] theorem isRequest_copy (p n : Nat) (a : CopyAnswer) : isRequest (.copy p n a) = true := rfl

@[simp] theorem txByte_comp_tx : txByte ∘ Transfer.tx = some := rfl

@[simp] theorem isRequest_comp_tx : isRequest ∘ Transfer.tx = fun _ => false := rfl

theorem filterMap_txByte_map_tx (bs : List Byte) : (bs.map Transfer.tx).filterMap txByte = bs := by simp

theorem filter_isRequest_map_tx (bs : List Byte) : (bs.map Transfer.tx).filter isRequest = [] := by simp

/-- What leaves on `tx` is what is emitted; a byte taken is no output. -/
@[simp] theorem sent_emit (bs : List Byte) (s : State) : sent (emit bs s) = sent s ++ bs := by simp [sent]

@[simp] theorem sent_sendReply (p : List Byte) (s : State) : sent (sendReply p s) = sent s ++ frame p := by
  simp [sent]

@[simp] theorem sent_takeByte (b : Byte) (rest : List Byte) (s : State) : sent (takeByte b rest s) = sent s := by
  simp [sent, List.filterMap_cons]

/-- No emission and no byte taken is a request. -/
@[simp] theorem requests_emit (bs : List Byte) (s : State) : requests (emit bs s) = requests s := by simp [requests]

@[simp] theorem requests_sendReply (p : List Byte) (s : State) : requests (sendReply p s) = requests s := by
  simp [requests]

@[simp] theorem requests_takeByte (b : Byte) (rest : List Byte) (s : State) :
    requests (takeByte b rest s) = requests s := by simp [requests]

/-- A cut step's output bytes are the first `k` of the step's (R251). -/
theorem cutTransfers_txBytes (k : Nat) (r : Bool) (ts : List Transfer) :
    (cutTransfers k r ts).filterMap txByte = (ts.filterMap txByte).take k := by
  induction ts generalizing k with
  | nil => simp [cutTransfers]
  | cons t ts ih =>
    cases t with
    | rx b => simp [cutTransfers, ih, List.filterMap_cons]
    | tx b => cases k <;> simp [cutTransfers, ih]
    | regs a => cases r <;> simp [cutTransfers, ih, List.filterMap_cons]
    | copy p n a => cases r <;> simp [cutTransfers, ih, List.filterMap_cons]

/-- A cut step's request is the step's where it was issued, and none where it was not (R251). -/
theorem cutTransfers_requests (k : Nat) (r : Bool) (ts : List Transfer) :
    (cutTransfers k r ts).filter isRequest = if r then ts.filter isRequest else [] := by
  induction ts generalizing k with
  | nil => simp [cutTransfers]
  | cons t ts ih =>
    cases t with
    | rx b => simpa [cutTransfers] using ih k
    | tx b => cases k <;> simpa [cutTransfers] using ih _
    | regs a => cases r <;> simpa [cutTransfers, List.filter_cons] using ih k
    | copy p n a => cases r <;> simpa [cutTransfers, List.filter_cons] using ih k

/-- A cut step takes the bytes that the step took. -/
theorem cutTransfers_rx (k : Nat) (r : Bool) (ts : List Transfer) (b : Byte) :
    .rx b ∈ cutTransfers k r ts ↔ .rx b ∈ ts := by
  induction ts generalizing k with
  | nil => simp [cutTransfers]
  | cons t ts ih =>
    cases t with
    | rx b => simp [cutTransfers, ih]
    | tx b => cases k <;> simp [cutTransfers, ih]
    | regs a => cases r <;> simp [cutTransfers, ih]
    | copy p n a => cases r <;> simp [cutTransfers, ih]

/-- A cut step's draws stay taken, whether its request was issued or not (log entry 10). -/
@[simp] theorem cutShort_draws (k : Nat) (r : Bool) (s t : State) : (cutShort k r s t).draws = t.draws := rfl

/-- `t` follows `s` within one step: the ports' record has grown, by no byte taken, and the configuration and what waits
for the next step are the same. -/
structure Follows (s t : State) : Prop where
  ports : ∃ d, t.ports = s.ports ++ d ∧ ∀ c, .rx c ∉ d
  rx : t.rx = s.rx
  cfg : t.cfg = s.cfg
  schedule : t.schedule = s.schedule

theorem Follows.trans {s t u : State} (h : Follows s t) (g : Follows t u) : Follows s u where
  ports := by
    obtain ⟨d, hd, h1⟩ := h.ports
    obtain ⟨e, he, h2⟩ := g.ports
    refine ⟨d ++ e, by rw [he, hd, List.append_assoc], fun c hc => ?_⟩
    rcases List.mem_append.1 hc with hc | hc
    · exact h1 c hc
    · exact h2 c hc
  rx := g.rx.trans h.rx
  cfg := g.cfg.trans h.cfg
  schedule := g.schedule.trans h.schedule

/-- The same ports' record. -/
theorem Follows.of_ports_eq {s t : State} (hp : t.ports = s.ports) (hx : t.rx = s.rx) (hc : t.cfg = s.cfg)
    (hs : t.schedule = s.schedule) : Follows s t :=
  ⟨⟨[], by simp [hp], by simp⟩, hx, hc, hs⟩

theorem follows_emit (bs : List Byte) (s : State) : Follows s (emit bs s) :=
  ⟨⟨_, emit_ports s bs, by simp⟩, rfl, rfl, rfl⟩

theorem follows_sendReply (p : List Byte) (s : State) : Follows s (sendReply p s) :=
  ⟨⟨_, sendReply_ports s p, by simp⟩, rfl, rfl, rfl⟩

theorem follows_signal (e : ErrorEvent) (s : State) : Follows s (signal e s) := .of_ports_eq rfl rfl rfl rfl

theorem follows_tookRegs (a : RegsAnswer) (s : State) : Follows s (tookRegs a s) :=
  ⟨⟨[.regs a], rfl, by simp⟩, rfl, rfl, rfl⟩

theorem follows_tookCopy (p n : Nat) (a : CopyAnswer) (s : State) : Follows s (tookCopy p n a s) :=
  ⟨⟨[.copy p n a], rfl, by simp⟩, rfl, rfl, rfl⟩

/-- `g` answers after one request within its contract. -/
theorem execReadRegisters_next {r : List Byte} {s t : State} (h : execReadRegisters r s = .next t) :
    ∃ cpu ws, ws.length = s.cfg.nregs ∧
      t = sendReply (registerDump ws) (tookRegs (.words cpu ws) s) := by
  unfold execReadRegisters at h
  split at h
  · cases h
  · cases h
    obtain ⟨hl, cpu, rfl⟩ := askRegs_ok ‹_›
    exact ⟨cpu, _, hl, rfl⟩

/-- `m` answers after one request within its contract. -/
theorem execReadMemory_next {a : List Byte} {l : Option (List Byte)} {s t : State}
    (h : execReadMemory a l s = .next t) :
    ∃ x, (∀ bs, x = some bs → bs.length = memLen s l) ∧
      t = replyMemory x (tookCopy (memAddr s a) (memLen s l) (copyAnswerOf x) s) := by
  unfold execReadMemory at h
  split at h
  · cases h
  · cases h
    obtain ⟨hl, rfl⟩ := askCopy_ok ‹_›
    exact ⟨_, hl, rfl⟩

theorem follows_replyMemory (x : Option (List Byte)) (s : State) : Follows s (replyMemory x s) := by
  cases x with
  | none => exact (follows_signal _ _).trans (follows_sendReply _ _)
  | some bs => exact follows_sendReply _ _

theorem runCommand_follows {c : Command} {s t : State} (h : runCommand c s = .next t) : Follows s t := by
  cases c <;> simp only [runCommand] at h
  case readRegisters r =>
    obtain ⟨cpu, ws, _, rfl⟩ := execReadRegisters_next h
    exact (follows_tookRegs _ _).trans (follows_sendReply _ _)
  case readMemory a l =>
    obtain ⟨x, _, rfl⟩ := execReadMemory_next h
    exact (follows_tookCopy _ _ _ _).trans (follows_replyMemory _ _)
  case selectThread | queryOffsets | stopReason => cases h; exact follows_sendReply _ _
  case queryOther | unknown => cases h; exact (follows_signal _ _).trans (follows_sendReply _ _)
  case kill => cases h; exact .of_ports_eq rfl rfl rfl rfl

theorem follows_appendCommandByte (b : Byte) (s : State) : Follows s (goto .cmdRead (appendCommandByte b s)) := by
  unfold appendCommandByte
  split <;> exact .of_ports_eq rfl rfl rfl rfl

/-- The frame of every instruction: what waits for the next step and the configuration stay, and the ports' record only
grows, by no byte taken. -/
theorem exec_follows {i : Instr} {s t : State} (h : exec i s = .next t) : Follows s t := by
  cases i <;> simp only [exec] at h
  case cksumLoGood => exact (follows_emit _ _).trans (runCommand_follows h)
  case cksumLoBad | waitackOther =>
    cases h; exact (follows_emit _ _).trans (.of_ports_eq rfl rfl rfl rfl)
  case nakRx =>
    unfold execNakRx at h
    split at h
    · cases h; exact (follows_emit _ _).trans (.of_ports_eq rfl rfl rfl rfl)
    · cases h
  case payloadStore | payloadDrop => cases h; exact follows_appendCommandByte _ _
  case selectThread r => exact runCommand_follows (c := .selectThread r) h
  case queryOffsets => exact runCommand_follows (c := .queryOffsets) h
  case queryOther r => exact runCommand_follows (c := .queryOther r) h
  case stopReason r => exact runCommand_follows (c := .stopReason r) h
  case readRegisters r => exact runCommand_follows (c := .readRegisters r) h
  case readMemory a l => exact runCommand_follows (c := .readMemory a l) h
  case kill r => exact runCommand_follows (c := .kill r) h
  case unknown r => exact runCommand_follows (c := .unknown r) h
  all_goals cases h; exact .of_ports_eq rfl rfl rfl rfl

end Sys2Proof.Machine
end

