-- ==== Sys2Proof/Laws/PerInstr.lean ====
section
/-! SUPPORT. The statements made of every instruction as syntax: the shape of its encoding. -/

namespace Sys2Proof.Laws.EncodeShape

/-- A well-formed row of R76 is at most one input byte (none for QUIT_HALT); a well-formed command is a text with no
0x00 in it, so that the stored payload it is sent as reads back whole (R160). -/
def Statement (i : Instr) : Prop :=
  i.wf = true →
    (i.isCommand = false → (encode i).length ≤ 1) ∧ (i.isCommand = true → textOf (encode i) = encode i)

theorem row_of_length_le {i : Instr} (hc : i.isCommand = false) (hl : (encode i).length ≤ 1) : Statement i :=
  fun _ => ⟨fun _ => hl, fun h => (by simp [hc] at h)⟩

theorem command_of_isText {i : Instr} (hc : i.isCommand = true) (ht : i.wf = true → isText (encode i) = true) :
    Statement i :=
  fun hw => ⟨fun h => (by simp [hc] at h), fun _ => textOf_of_isText (ht hw)⟩

theorem frameStart : Statement .frameStart := row_of_length_le rfl (by decide)
theorem initNoise (b : Byte) : Statement (.initNoise b) := row_of_length_le rfl (by simp [encode])
theorem frameEnd : Statement .frameEnd := row_of_length_le rfl (by decide)
theorem payloadStore (b : Byte) : Statement (.payloadStore b) := row_of_length_le rfl (by simp [encode])
theorem payloadDrop (b : Byte) : Statement (.payloadDrop b) := row_of_length_le rfl (by simp [encode])
theorem cksumHi (n : Nibble) : Statement (.cksumHi n) := row_of_length_le rfl (by simp [encode])
theorem cksum1Garbage (b : Byte) : Statement (.cksum1Garbage b) := row_of_length_le rfl (by simp [encode])
theorem cksumLoBad (n : Nibble) : Statement (.cksumLoBad n) := row_of_length_le rfl (by simp [encode])
theorem cksumLoGood (n : Nibble) : Statement (.cksumLoGood n) := row_of_length_le rfl (by simp [encode])
theorem cksum2Garbage (b : Byte) : Statement (.cksum2Garbage b) := row_of_length_le rfl (by simp [encode])
theorem ackRx : Statement .ackRx := row_of_length_le rfl (by decide)
theorem nakRx : Statement .nakRx := row_of_length_le rfl (by decide)
theorem waitackOther (b : Byte) : Statement (.waitackOther b) := row_of_length_le rfl (by simp [encode])
theorem quitHalt : Statement .quitHalt := row_of_length_le rfl (by decide)

theorem selectThread (r : List Byte) : Statement (.selectThread r) :=
  command_of_isText rfl fun h => by simpa [encode, isText, Instr.wf] using h

theorem queryOffsets : Statement .queryOffsets := command_of_isText rfl fun _ => by decide

theorem queryOther (r : List Byte) : Statement (.queryOther r) :=
  command_of_isText rfl fun h => by
    simp only [Instr.wf, Bool.and_eq_true] at h
    simpa [encode, isText] using h.1

theorem stopReason (r : List Byte) : Statement (.stopReason r) :=
  command_of_isText rfl fun h => by simpa [encode, isText, Instr.wf] using h

theorem readRegisters (r : List Byte) : Statement (.readRegisters r) :=
  command_of_isText rfl fun h => by simpa [encode, isText, Instr.wf] using h

theorem readMemory (a : List Byte) (l : Option (List Byte)) : Statement (.readMemory a l) :=
  command_of_isText rfl fun h => by
    simp only [Instr.wf, Bool.and_eq_true] at h
    cases l with
    | none => simpa [encode, isText] using h.1.1
    | some l => simpa [encode, isText] using And.intro (by simpa [isText] using h.1.1) (by simpa using h.2)

theorem kill (r : List Byte) : Statement (.kill r) :=
  command_of_isText rfl fun h => by simpa [encode, isText, Instr.wf] using h

theorem unknown (t : List Byte) : Statement (.unknown t) :=
  command_of_isText rfl fun h => by
    cases t with
    | nil => rfl
    | cons c r =>
      simp only [Instr.wf, Bool.and_eq_true] at h
      exact h.1

end Sys2Proof.Laws.EncodeShape
end

