-- ==== Sys2Proof/Tests/Slice0.lean ====
section
/-! SUPPORT. Tests of the model against the vectors of 95_test_vectors.md and the rules, each of one step or one
function, and for every statement with hypotheses a witness that meets them. -/

namespace Sys2Proof.Tests

open Sys2Proof.Machine

/-! ### Well-formed terms: one refused for each check -/

theorem test_wf_init_noise_is_not_dollar : (Instr.initNoise 0x24).wf = false ∧ (Instr.initNoise 0x23).wf = true := by
  decide
theorem test_wf_payload_is_not_hash :
    (Instr.payloadStore 0x23).wf = false ∧ (Instr.payloadDrop 0x23).wf = false ∧
    (Instr.payloadStore 0x24).wf = true ∧ (Instr.payloadDrop 0x24).wf = true := by decide
theorem test_wf_garbage_is_no_digit :
    (Instr.cksum1Garbage 0x30).wf = false ∧ (Instr.cksum2Garbage 0x46).wf = false ∧
    (Instr.cksum1Garbage 0x2F).wf = true ∧ (Instr.cksum2Garbage 0x47).wf = true := by decide
theorem test_wf_waitack_other_is_no_answer :
    (Instr.waitackOther 0x2B).wf = false ∧ (Instr.waitackOther 0x2D).wf = false ∧
    (Instr.waitackOther 0x24).wf = true := by decide
theorem test_wf_command_text_has_no_nul :
    (Instr.selectThread [0x00]).wf = false ∧ (Instr.stopReason [0x41, 0x00]).wf = false ∧
    (Instr.readRegisters [0x00]).wf = false ∧ (Instr.kill [0x00]).wf = false ∧
    (Instr.queryOther [0x00]).wf = false ∧ (Instr.unknown [0x5A, 0x00]).wf = false := by decide
theorem test_wf_query_other_is_not_offsets : (Instr.queryOther txtOffsets).wf = false := by decide
theorem test_wf_memory_fields :
    (Instr.readMemory [0x2C] none).wf = false ∧ (Instr.readMemory [0x00] none).wf = false ∧
    (Instr.readMemory [0x30] (some [0x00])).wf = false ∧ (Instr.readMemory [0x30] (some [0x2C])).wf = true := by decide
theorem test_wf_unknown_is_no_selector :
    (Instr.unknown [0x48]).wf = false ∧ (Instr.unknown [0x71]).wf = false ∧ (Instr.unknown [0x3F]).wf = false ∧
    (Instr.unknown [0x67]).wf = false ∧ (Instr.unknown [0x6D]).wf = false ∧ (Instr.unknown [0x6B]).wf = false ∧
    (Instr.unknown [0x4B]).wf = true ∧ (Instr.unknown []).wf = true := by decide

/-! ### Codec (95_test_vectors.md L2.1) -/

theorem test_nib_vectors :
    nib 0x30 = some 0 ∧ nib 0x39 = some 9 ∧ nib 0x41 = some 10 ∧ nib 0x61 = some 10 ∧ nib 0x46 = some 15 ∧
    nib 0x66 = some 15 ∧ nib 0x47 = none ∧ nib 0x67 = none ∧ nib 0x2F = none ∧ nib 0x3A = none ∧ nib 0x40 = none ∧
    nib 0x60 = none ∧ nib 0x00 = none ∧ nib 0xFF = none := by decide
theorem test_csum_vectors :
    csum [] = 0x00 ∧ csum [0x24, 0x3F] = 0x63 ∧ csum [0x53, 0x30, 0x39] = 0xBC := by decide
theorem test_csum_wraps :
    csum (List.replicate 256 0xFF) = 0x00 ∧ csum (List.replicate 512 0x41) = 0x00 ∧
    csum (List.replicate 513 0x41) = 0x41 := by decide +kernel
theorem test_hex2_vectors :
    hex2 0x00 = [0x30, 0x30] ∧ hex2 0x0A = [0x30, 0x61] ∧ hex2 0xBC = [0x62, 0x63] ∧ hex2 0xFF = [0x66, 0x66] := by decide
theorem test_hex8_vectors :
    hex8 0x0000ABCD = [0x30, 0x30, 0x30, 0x30, 0x61, 0x62, 0x63, 0x64] ∧
    hex8 0x80000000 = [0x38, 0x30, 0x30, 0x30, 0x30, 0x30, 0x30, 0x30] := by decide
theorem test_hexmin_vectors :
    hexmin 32 0 = [0x30] ∧ hexmin 32 0x100 = [0x31, 0x30, 0x30] ∧
    hexmin 32 0xFFFFFFFF = [0x66, 0x66, 0x66, 0x66, 0x66, 0x66, 0x66, 0x66] := by decide
theorem test_declared_vectors : (nib 0x66).map (declared 3) = some 0x3F ∧ (nib 0x46).map (declared 3) = some 0x3F := by
  decide
theorem test_hexval_vectors :
    hexval 32 [] = some 0 ∧ hexval 32 [0x66, 0x66] = some 0xFF ∧ hexval 32 [0x46, 0x66, 0x46] = some 0xFFF ∧
    hexval 32 [0x31, 0x32, 0x33, 0x34, 0x35, 0x36, 0x37, 0x38, 0x39] = some 0x23456789 ∧
    hexval 32 [0x31, 0x67] = none := by decide
theorem test_frame_vectors :
    frame [0x53, 0x30, 0x39] = [0x24, 0x53, 0x30, 0x39, 0x23, 0x62, 0x63] ∧ frame [] = [0x24, 0x23, 0x30, 0x30] ∧
    frame [0x45, 0x30, 0x31] = [0x24, 0x45, 0x30, 0x31, 0x23, 0x61, 0x36] := by decide

/-! ### Decoding: one written-out word for each row of the opcode table -/

/-- A state with `st` of R22 and, for CKSUM2, `hi` = 3 and `csum_acc` = 0x3f as in D-FSM-20. -/
def ctx (st : BitVec 3) (full : Bool) : RxContext := ⟨st, full, 3, 0x3F⟩

theorem test_decode_init_rows :
    (decodeRx (ctx 0 false) 0x24).toOption = some .frameStart ∧
    (decodeRx (ctx 0 false) 0x7E).toOption = some (.initNoise 0x7E) := by decide
theorem test_decode_cmdread_rows :
    (decodeRx (ctx 1 true) 0x23).toOption = some .frameEnd ∧
    (decodeRx (ctx 1 false) 0x24).toOption = some (.payloadStore 0x24) ∧
    (decodeRx (ctx 1 true) 0x24).toOption = some (.payloadDrop 0x24) := by decide
theorem test_decode_cksum1_rows :
    (decodeRx (ctx 2 false) 0x46).toOption = some (.cksumHi 15) ∧
    (decodeRx (ctx 2 false) 0x23).toOption = some (.cksum1Garbage 0x23) := by decide
theorem test_decode_cksum2_rows :
    (decodeRx (ctx 3 false) 0x66).toOption = some (.cksumLoGood 15) ∧
    (decodeRx (ctx 3 false) 0x46).toOption = some (.cksumLoGood 15) ∧
    (decodeRx (ctx 3 false) 0x65).toOption = some (.cksumLoBad 14) ∧
    (decodeRx (ctx 3 false) 0x26).toOption = some (.cksum2Garbage 0x26) := by decide
theorem test_decode_waitack_rows :
    (decodeRx (ctx 4 false) 0x2B).toOption = some .ackRx ∧ (decodeRx (ctx 4 false) 0x2D).toOption = some .nakRx ∧
    (decodeRx (ctx 4 false) 0x24).toOption = some (.waitackOther 0x24) := by decide
theorem test_decode_quit_row : (decodeRx (ctx 5 false) 0x24).toOption = some .quitHalt := by decide
theorem test_decode_illegal_states :
    (decodeRx (ctx 6 false) 0x24).toOption = none ∧ (decodeRx (ctx 7 false) 0x24).toOption = none := by decide
theorem test_decode_select_thread : decodeCommand [0x48, 0x67, 0x30] = .selectThread [0x67, 0x30] := by decide
theorem test_decode_query_offsets :
    decodeCommand [0x71, 0x4F, 0x66, 0x66, 0x73, 0x65, 0x74, 0x73] = .queryOffsets ∧
    decodeCommand [0x71, 0x4F, 0x66, 0x66, 0x73, 0x65, 0x74, 0x73, 0x00, 0x7A, 0x7A] = .queryOffsets := by decide
theorem test_decode_query_other :
    decodeCommand [0x71] = .queryOther [] ∧
    decodeCommand [0x71, 0x6F, 0x66, 0x66, 0x73, 0x65, 0x74, 0x73] =
      .queryOther [0x6F, 0x66, 0x66, 0x73, 0x65, 0x74, 0x73] := by decide
theorem test_decode_stop_reason : decodeCommand [0x3F] = .stopReason [] := by decide
theorem test_decode_read_registers : decodeCommand [0x67, 0x58] = .readRegisters [0x58] := by decide
theorem test_decode_read_memory :
    decodeCommand [0x6D, 0x31, 0x30, 0x2C, 0x32] = .readMemory [0x31, 0x30] (some [0x32]) ∧
    decodeCommand [0x6D, 0x30] = .readMemory [0x30] none ∧
    decodeCommand [0x6D, 0x2C, 0x2C] = .readMemory [] (some [0x2C]) := by decide
theorem test_decode_kill : decodeCommand [0x6B, 0x69, 0x6C, 0x6C] = .kill [0x69, 0x6C, 0x6C] := by decide
theorem test_decode_unknown :
    decodeCommand [] = .unknown [] ∧ decodeCommand [0x4B] = .unknown [0x4B] ∧
    decodeCommand [0x24, 0x3F] = .unknown [0x24, 0x3F] ∧ decodeCommand [0x00, 0x6B] = .unknown [] := by decide
theorem test_decode_table_words :
    decodeTableWord 8 0x66 = some (.cksumHi 15) ∧ decodeTableWord 8 0x00 = some (.initNoise 0) ∧
    decodeTableWord 8 0x71 = some (.queryOther []) ∧ decodeTableWord 16 0x3A63 = some (.unknown [0x63, 0x3A]) := by
  decide

/-! ### States for the tests -/

/-- `st` and the bytes waiting at the transport, all else as after reset. -/
def atState (st : BitVec 3) (rx : List Byte) : State := { State.reset with st := st, rx := rx }

/-- About to take the last checksum digit of the frame of `cmd`, with high digit `hi` and sum `acc`. -/
def atDigit (cmd : List Byte) (acc : Byte) (hi : Nibble) (digit : Byte) : State :=
  { atState 3 [digit] with cmd := cmd, cmdLen := cmd.length, csumAcc := acc, hi := hi }

/-- WAITACK with the cached reply `$OK#9a`, as in D-FSM-19. -/
def waiting (rx : List Byte) : State :=
  { atState 4 rx with reply := [0x24, 0x4F, 0x4B, 0x23, 0x39, 0x61], replyLen := 6, replyValid := true }

/-- With the boundary `b` next. -/
def withBoundary (b : Boundary) (s : State) : State := { s with schedule := [b] }

/-- The next state, where there is one. -/
def ran : Host.Outcome State Fault Refusal → Option State
  | .next t => some t
  | .fault _ | .refused _ => none

/-- `st`, the bytes sent and the events of the next state. -/
def seen (o : Host.Outcome State Fault Refusal) : Option (BitVec 3 × List Byte × List ErrorEvent) :=
  (ran o).map fun t => (t.st, sent t, t.events)

/-- The reason of a fault without a state. -/
def faulted : Host.Outcome State Fault Refusal → Option Fault
  | .fault f => some f
  | .next _ | .refused _ => none

/-- The reason of a refusal. -/
def refusedBy : Host.Outcome State Fault Refusal → Option Refusal
  | .refused r => some r
  | .next _ | .fault _ => none

/-! ### One step of each row (95_test_vectors.md L1 and L2.2) -/

/-- L1-1 step 1. -/
theorem test_step_frame_start :
    (ran (step { atState 0 [0x24, 0x3F] with cmdLen := 7, csumAcc := 9 })).map (fun t => (t.st, t.cmdLen, t.csumAcc, t.rx))
      = some (1, 0, 0, [0x3F]) := by decide
/-- D-FSM-1. -/
theorem test_step_init_noise : seen (step (atState 0 [0x2B])) = some (0, [], [.ev1]) := by decide
/-- L1-1 step 2. -/
theorem test_step_payload_store :
    (ran (step (atState 1 [0x3F]))).map (fun t => (t.st, storedPayload t, t.csumAcc)) = some (1, [0x3F], 0x3F) := by decide
/-- D-FSM-15: byte 512 is stored. -/
theorem test_step_payload_store_last :
    (ran (step { atState 1 [0x42] with cmd := List.replicate 511 0x41, cmdLen := 511, csumAcc := 0xBF })).map
      (fun t => (t.cmdLen, t.csumAcc, t.events)) = some (512, 0x01, []) := by decide +kernel
/-- D-FSM-16: byte 513 is dropped and not summed. -/
theorem test_step_payload_drop :
    (ran (step { atState 1 [0x41] with cmd := List.replicate 512 0x41, cmdLen := 512, csumAcc := 0 })).map
      (fun t => (t.st, t.cmdLen, t.csumAcc, t.events)) = some (1, 512, 0, [.ev7]) := by decide +kernel
/-- L1-1 step 3. -/
theorem test_step_frame_end : seen (step (atState 1 [0x23])) = some (2, [], []) := by decide
/-- L1-1 step 4. -/
theorem test_step_cksum_hi :
    (ran (step (atState 2 [0x33]))).map (fun t => (t.st, t.hi)) = some (3, 3) := by decide
/-- D-FSM-13: `'#'` is garbage in CKSUM1. -/
theorem test_step_cksum1_garbage : seen (step (atState 2 [0x23])) = some (2, [], [.ev2]) := by decide
/-- L1-4, bit 0. -/
theorem test_step_cksum_lo_bad :
    seen (step (atDigit [0x3F] 0x3F 3 0x65)) = some (0, [0x2D], [.ev3]) := by decide
/-- D-FSM-8: a bad checksum on `k` does not quit. -/
theorem test_step_cksum_lo_bad_kill :
    seen (step (atDigit [0x6B] 0x6B 6 0x63)) = some (0, [0x2D], [.ev3]) := by decide
/-- D-FSM-4: the uppercase digit. -/
theorem test_step_cksum_lo_good :
    seen (step (atDigit [0x3F] 0x3F 3 0x46)) =
      some (4, [0x2B, 0x24, 0x53, 0x30, 0x39, 0x23, 0x62, 0x63], []) := by decide
/-- D-FSM-20. -/
theorem test_step_cksum2_garbage :
    (ran (step (atDigit [0x3F] 0x3F 3 0x7A))).map (fun t => (t.st, t.hi, sent t, t.events)) =
      some (3, 3, [], [.ev2]) := by decide
/-- D-FSM-9: the reply stays cached. -/
theorem test_step_ack :
    (ran (step (waiting [0x2B]))).map (fun t => (t.st, sent t, t.replyValid, t.replyLen)) = some (0, [], true, 6) := by
  decide
/-- D-FSM-19. -/
theorem test_step_nak :
    seen (step (waiting [0x2D])) = some (4, [0x24, 0x4F, 0x4B, 0x23, 0x39, 0x61], []) := by decide
/-- D-FSM-12: the second `'$'`. -/
theorem test_step_waitack_other : seen (step (waiting [0x24])) = some (0, [0x2D], [.ev6]) := by decide
/-- D-FSM-18: no byte is taken in QUIT. -/
theorem test_step_quit_halt : ran (step (atState 5 [0x24])) = some (atState 5 [0x24]) := by decide

/-! ### One step of each command (95_test_vectors.md L2.4) -/

/-- H-1. -/
theorem test_step_select_thread :
    seen (step (atDigit [0x48, 0x67, 0x30] 0xDF 13 0x66)) =
      some (4, [0x2B, 0x24, 0x4F, 0x4B, 0x23, 0x39, 0x61], []) := by decide
/-- q-1. -/
theorem test_step_query_offsets :
    seen (step (atDigit [0x71, 0x4F, 0x66, 0x66, 0x73, 0x65, 0x74, 0x73] 0x4B 4 0x62)) =
      some (4, [0x2B, 0x24, 0x54, 0x65, 0x78, 0x74, 0x3D, 0x30, 0x3B, 0x44, 0x61, 0x74, 0x61, 0x3D, 0x30, 0x3B, 0x42,
        0x73, 0x73, 0x3D, 0x30, 0x23, 0x30, 0x34], []) := by decide
/-- q-1b: the last digits of `Bss=ffffffff#ed`. -/
theorem test_step_query_offsets_set :
    (seen (step { atDigit [0x71, 0x4F, 0x66, 0x66, 0x73, 0x65, 0x74, 0x73] 0x4B 4 0x62 with
      cfg := { Config.initial with textOff := 0x1000, dataOff := 0x80000000, bssOff := 0xFFFFFFFF } })).map
        (fun r => r.2.1.drop 31) =
      some [0x66, 0x66, 0x66, 0x66, 0x66, 0x66, 0x66, 0x23, 0x65, 0x64] := by decide +kernel
/-- q-3. -/
theorem test_step_query_other :
    seen (step (atDigit [0x71] 0x71 7 0x31)) = some (4, [0x2B, 0x24, 0x45, 0x4E, 0x53, 0x23, 0x65, 0x36], [.ev4]) := by
  decide
/-- L1-1 step 5, with all state elements of the example. -/
theorem test_step_stop_reason :
    (ran (step (atDigit [0x3F] 0x3F 3 0x66))).map
      (fun t => ((t.st, t.cmdLen, t.csumAcc, t.hi), t.reply, t.replyLen, t.replyValid)) =
      some ((4, 1, 0x3F, 3), [0x24, 0x53, 0x30, 0x39, 0x23, 0x62, 0x63], 7, true) := by decide

/-- NREGS = 2, and its words waiting at the `regs` port (g-1). -/
def twoRegs (s : State) : State :=
  { s with
    cfg := { Config.initial with nregs := 2, regOrder := ["R0", "R1"] }
    regsAnswers := [.words 0 [0x12345678, 0xFFFFFFFF]] }

/-- With the answer `a` waiting at the `copy` port. -/
def copying (a : CopyAnswer) (s : State) : State := { s with copyAnswers := [a] }

/-- g-1. -/
theorem test_step_read_registers :
    seen (step (twoRegs (atDigit [0x67] 0x67 6 0x37))) =
      some (4, [0x2B, 0x24, 0x31, 0x32, 0x33, 0x34, 0x35, 0x36, 0x37, 0x38, 0x66, 0x66, 0x66, 0x66, 0x66, 0x66, 0x66,
        0x66, 0x23, 0x64, 0x34], []) := by decide
/-- m-2. -/
theorem test_step_read_memory :
    (ran (step (copying (.ok [0xDE, 0xAD, 0xBE, 0xEF]) (atDigit [0x6D, 0x30, 0x2C, 0x34] 0xFD 15 0x64)))).map
      (fun t => (t.st, t.ports)) =
      some (4, [.rx 0x64, .tx 0x2B, .copy 0 4 (.ok [0xDE, 0xAD, 0xBE, 0xEF]), .tx 0x24, .tx 0x64, .tx 0x65, .tx 0x61,
        .tx 0x64, .tx 0x62, .tx 0x65, .tx 0x65, .tx 0x66, .tx 0x23, .tx 0x32, .tx 0x30]) := by decide
/-- m-1. -/
theorem test_step_read_memory_fault :
    seen (step (copying .fault (atDigit [0x6D, 0x30, 0x2C, 0x34] 0xFD 15 0x64))) =
      some (4, [0x2B, 0x24, 0x45, 0x30, 0x32, 0x23, 0x61, 0x37], [.ev5]) := by decide
/-- P4: the address at the top of the address space, the length 0x81 clamped to 128. -/
theorem test_memory_operands :
    memAddr State.reset (List.replicate 8 0x66) = 0xFFFFFFFF ∧ memLen State.reset (some [0x38, 0x31]) = 128 ∧
    memLen State.reset none = 0 := by decide
/-- k-2: the ACK alone, and the reply of before stays cached. -/
theorem test_step_kill :
    (ran (step { atDigit [0x6B, 0x69, 0x6C, 0x6C] 0xAC 10 0x63 with
      reply := [0x24], replyLen := 1, replyValid := true })).map
      (fun t => (t.st, sent t, cachedReply t, quitOutput t)) = some (5, [0x2B], [0x24], true) := by decide
/-- U-2: the empty payload. -/
theorem test_step_unknown :
    seen (step (atDigit [] 0 0 0x30)) = some (4, [0x2B, 0x24, 0x45, 0x30, 0x31, 0x23, 0x61, 0x36], [.ev4]) := by decide

/-! ### Boundaries and reset -/

/-- R44, R7: what reset leaves, in a configuration that R7 admits. -/
theorem test_reset_state :
    State.reset.cfg.valid = true ∧ State.reset.st = 0 ∧ State.reset.cmdLen = 0 ∧ State.reset.csumAcc = 0 ∧
    State.reset.hi = 0 ∧ State.reset.replyLen = 0 ∧ State.reset.replyValid = false ∧
    quitOutput State.reset = false ∧ rxReady State.reset = true ∧ txValid State.reset = false := by decide
/-- D-FSM-21. -/
theorem test_operator_quit :
    (ran (step (withBoundary { quitReq := true } (atState 1 [0x41])))).map (fun t => (t.st, t.rx, t.ports)) =
      some (5, [0x41], []) := by decide
/-- D-FSM-22. -/
theorem test_reset_in_waitack :
    (ran (step (withBoundary { rst := .asserted } (waiting [0x2D])))).map
      (fun t => (t.st, t.replyLen, t.replyValid, t.ports)) = some (0, 0, false, []) := by decide
/-- R251: reset after three bytes of the resend. -/
theorem test_reset_cuts_a_resend :
    seen (step (withBoundary { rst := .during 3 false } (waiting [0x2D]))) = some (0, [0x24, 0x4F, 0x4B], []) := by decide
/-- R242, R251, R111: reset leaves a stuck `m`, and the next `m` has another draw, with the request issued or not (log
entry 10). -/
theorem test_reset_leaves_a_stuck_copy :
    faulted (step (copying .silent (atDigit [0x6D] 0x6D 6 0x64))) ≠ none ∧
    (ran (step (withBoundary { rst := .during 1 true } (copying .silent (atDigit [0x6D] 0x6D 6 0x64))))).map
      (fun t => (t.st, t.draws)) = some (0, 1) ∧
    (ran (step (withBoundary { rst := .during 1 false } (copying .silent (atDigit [0x6D] 0x6D 6 0x64))))).map
      (fun t => (t.st, t.draws)) = some (0, 1) := by decide
/-- A placed word is the one that the next step runs (log entry 22). -/
theorem test_fetch_words :
    seen (step (State.reset.withFetchWord 8 0x24)) = some (1, [], []) ∧
    seen (step (State.reset.withFetchWord 8 0x2D)) = some (4, [0x24, 0x23, 0x30, 0x30], []) ∧
    seen (step (State.reset.withFetchWord 8 0x3F)) =
      some (4, [0x2B, 0x24, 0x53, 0x30, 0x39, 0x23, 0x62, 0x63], []) ∧
    seen (step (State.reset.withFetchWord 8 0x6B)) = some (5, [0x2B], []) := by decide

/-! ### Witnesses: a state and operands that meet each statement's hypotheses -/

/-- OffsetDigitsAreMinimal: the ends of the range, at the least and the greatest width. -/
theorem test_witness_offset_digits :
    8 % 4 = 0 ∧ 8 ≤ 8 ∧ 0 < 2 ^ 8 ∧ 255 < 2 ^ 8 ∧ 64 % 4 = 0 ∧ 0xFFFFFFFFFFFFFFFF < 2 ^ 64 := by decide
/-- HexFieldValue: a prefix and a next digit; nine digits of which the last eight count; a field without a value. -/
theorem test_witness_hex_field :
    (hexval 32 [0x66] = some 15 ∧ nib 0x46 = some 15) ∧
    (32 % 4 = 0 ∧ (List.replicate 8 (0x30 : Byte)).length = 32 / 4 ∧ ∀ c ∈ [(0x31 : Byte)], (nib c).isSome = true) ∧
    hexval 32 [0x7A, 0x7A] = none ∧ hexval 32 [] = some 0 := by decide
/-- EveryByteHasOneRow: a legal state, and a row that encodes to its byte, for each row that takes one. -/
theorem test_witness_rows :
    (phaseOf 5).isSome = true ∧
    (Instr.frameStart.wf ∧ appliesIn (ctx 0 false) .frameStart ∧ encode .frameStart = [0x24]) ∧
    ((Instr.cksumLoBad 14).wf ∧ appliesIn (ctx 3 false) (.cksumLoBad 14) ∧ encode (.cksumLoBad 14) = [0x65]) ∧
    ((Instr.waitackOther 0x24).wf ∧ appliesIn (ctx 4 false) (.waitackOther 0x24) ∧
      encode (.waitackOther 0x24) = [0x24]) := by decide
/-- InputRowDecodeOfEncode: each row in a context where it applies. -/
theorem test_witness_input_rows :
    ([(ctx 0 false, Instr.frameStart), (ctx 0 false, .initNoise 0x23), (ctx 1 true, .frameEnd),
      (ctx 1 false, .payloadStore 0x24), (ctx 1 true, .payloadDrop 0x24), (ctx 2 false, .cksumHi 15),
      (ctx 2 false, .cksum1Garbage 0x23), (ctx 3 false, .cksumLoBad 14), (ctx 3 false, .cksumLoGood 15),
      (ctx 3 false, .cksum2Garbage 0x7A), (ctx 4 false, .ackRx), (ctx 4 false, .nakRx),
      (ctx 4 false, .waitackOther 0x24)].all fun p => p.2.wf && appliesIn p.1 p.2 && p.2 != .quitHalt) = true := by decide
/-- CommandDecodeOfEncode: each command. -/
theorem test_witness_commands :
    ([Instr.selectThread [0x67, 0x30], .queryOffsets, .queryOther [], .stopReason [], .readRegisters [],
      .readMemory [0x30] (some [0x34]), .readMemory [0x30] none, .kill [], .unknown [0x5A], .unknown []].all
        fun i => i.wf && i.isCommand) = true := by decide
/-- CommandTextEndsAtNul. -/
theorem test_witness_nul : (0x00 : Byte) ∉ [(0x71 : Byte), 0x4F] ∧ (0x00 : Byte) ∉ ([] : List Byte) := by decide

/-- The Command Buffer with one free place, and full. -/
def lastPlace : State := { atState 1 [0x42] with cmd := List.replicate 511 0x41, cmdLen := 511, csumAcc := 0xBF }
def fullBuffer : State := { atState 1 [0x42] with cmd := List.replicate 512 0x41, cmdLen := 512 }

/-- PayloadByteIsStored, PayloadByteIsDroppedWhenFull: at the last free place, at the first, and full. -/
theorem test_witness_payload :
    (lastPlace.cmdLen < lastPlace.cfg.cmdCap ∧ lastPlace.cmdLen ≤ lastPlace.cmd.length) ∧
    (State.reset.cmdLen < State.reset.cfg.cmdCap ∧ State.reset.cmdLen ≤ State.reset.cmd.length) ∧
    fullBuffer.cfg.cmdCap ≤ fullBuffer.cmdLen := by decide +kernel
/-- GoodChecksumIsAnswered: both ways. -/
theorem test_witness_answered :
    (FreeAnswers (atDigit [0x6B] 0x6B 6 0x62) ∧
      decodeCommand (storedPayload (atDigit [0x6B] 0x6B 6 0x62)) = .kill []) ∧
    FreeAnswers (atDigit [0x67] 0x67 6 0x37) ∧
      decodeCommand (storedPayload (atDigit [0x67] 0x67 6 0x37)) = .readRegisters [] :=
  ⟨⟨⟨rfl, rfl⟩, by decide⟩, ⟨rfl, rfl⟩, by decide⟩
/-- NakResendsTheCachedReply: with and without a reply. -/
theorem test_witness_nak : (waiting []).replyValid = true ∧ (atState 4 []).replyValid = false := by decide
/-- ReadRegistersRepliesTheSnapshot. -/
theorem test_witness_read_registers :
    (twoRegs State.reset).regsAnswers = RegsAnswer.words 0 [0x12345678, 0xFFFFFFFF] :: [] ∧
    [(0x12345678 : RegWord), 0xFFFFFFFF].length = (twoRegs State.reset).cfg.nregs := by decide
/-- ReadMemoryRepliesTheBytes: `0,4`, and the clamp at 128 of the length 0x81. -/
theorem test_witness_read_memory :
    ((0 : Nat) = (hexval 32 [0x30]).getD (Config.addrDraw 0 % 2 ^ 32) ∧
      (4 : Nat) = (hexval 32 ((some [0x34]).getD [])).getD (Config.lenDraw 0 % 2 ^ 32) ∧
      [(0xDE : Byte), 0xAD, 0xBE, 0xEF].length = min 4 State.reset.cfg.memCap) ∧
    (0x81 : Nat) = (hexval 32 ((some [0x38, 0x31]).getD [])).getD (Config.lenDraw 0 % 2 ^ 32) ∧
    (List.replicate 128 (0x00 : Byte)).length = min 0x81 State.reset.cfg.memCap := by decide +kernel
/-- ReadMemoryFaultRepliesE02, CommandsCompleteWithFreeAnswers. -/
theorem test_witness_copy_answers :
    (copying .fault State.reset).copyAnswers = CopyAnswer.fault :: [] ∧ State.reset.regsAnswers = [] ∧
    State.reset.copyAnswers = [] := by decide
/-- BrokenCollaboratorIsStuck: no answer, the wrong number of words, the wrong number of bytes. -/
theorem test_witness_broken :
    (∀ cpu ws, RegsAnswer.silent = .words cpu ws → ws.length ≠ Config.initial.nregs) ∧
    (∀ cpu ws, RegsAnswer.words 0 [] = .words cpu ws → ws.length ≠ Config.initial.nregs) ∧
    CopyAnswer.ok [0x00] ≠ .fault ∧
    (∀ bs, CopyAnswer.ok [0x00] = .ok bs → bs.length ≠ memLen State.reset (some [0x34])) ∧
    (∀ bs, CopyAnswer.silent = .ok bs → bs.length ≠ memLen State.reset (some [0x34])) := by
  refine ⟨?_, ?_, by decide, ?_, ?_⟩
  · intro cpu ws h; cases h
  · intro cpu ws h; cases h; decide
  · intro bs h; cases h; decide
  · intro bs h; cases h
/-- OnlyRegistersAndMemoryAsk, RepliesArePrintableAndFit: an instruction of each kind that answers. -/
theorem test_witness_requests :
    (ran (exec (.stopReason []) State.reset)).isSome = true ∧
    (ran (exec (.readRegisters []) State.reset)).isSome = true ∧
    (ran (exec (.readMemory [0x30] none) State.reset)).isSome = true ∧
    Config.initial.valid = true ∧ (Instr.stopReason []).isCommand = true := by decide
/-- StepRunsTheDecodedRow: a byte that waits, and one that arrives at the boundary. -/
theorem test_witness_decoded_row :
    (NoPins (waiting [0x2D]) ∧ (waiting [0x2D]).rx ++ (nowBoundary (waiting [0x2D])).arrive = 0x2D :: [] ∧
      (waiting [0x2D]).st ≠ 5 ∧ (waiting [0x2D]).replyValid = true) ∧
    NoPins (withBoundary { arrive := [0x24] } (atState 0 [])) ∧
    (withBoundary { arrive := [0x24] } (atState 0 [])).rx ++
      (nowBoundary (withBoundary { arrive := [0x24] } (atState 0 []))).arrive = 0x24 :: [] :=
  ⟨⟨⟨rfl, rfl⟩, by decide, by decide, by decide⟩, ⟨rfl, rfl⟩, by decide⟩
/-- OperatorQuitComesFirst, in WAITACK and in CMDREAD. -/
theorem test_witness_operator_quit :
    NoReset (withBoundary { quitReq := true } (waiting [0x2D])) ∧
    (nowBoundary (withBoundary { quitReq := true } (waiting [0x2D]))).quitReq = true ∧
    (phaseOf (waiting [0x2D]).st).isSome = true ∧ (waiting [0x2D]).replyValid = true ∧
    (phaseOf (atState 1 []).st).isSome = true ∧ (atState 1 []).st ≠ 4 := ⟨rfl, by decide, by decide, by decide, by decide, by decide⟩
/-- QuitLastsUntilReset: with the operator's quit asserted and a byte waiting. -/
theorem test_witness_quit :
    (withBoundary { quitReq := true } (atState 5 [0x24])).st = 5 ∧
    NoReset (withBoundary { quitReq := true } (atState 5 [0x24])) := ⟨rfl, rfl⟩
/-- WaitingKeepsAllState: in INIT and in WAITACK. -/
theorem test_witness_waiting :
    (NoPins State.reset ∧ State.reset.rx = [] ∧ (nowBoundary State.reset).arrive = []) ∧
    NoPins (waiting []) ∧ (waiting []).rx = [] ∧ (nowBoundary (waiting [])).arrive = [] ∧
    (waiting []).replyValid = true := ⟨⟨⟨rfl, rfl⟩, rfl, rfl⟩, ⟨rfl, rfl⟩, rfl, rfl, rfl⟩
/-- IllegalStatesFault: both codes without a state, and WAITACK without a reply. -/
theorem test_witness_illegal_states :
    faulted (step (atState 6 [])) = some .illegalState ∧ faulted (step (atState 7 [0x24])) = some .illegalState ∧
    faulted (step (atState 4 [])) = some .waitAckWithoutReply := by decide
/-- BadConfigurationIsRefused: just outside each constraint, and just inside all of them. -/
theorem test_witness_bad_configuration :
    ([{ Config.initial with cmdCap := 511 }, { Config.initial with memCap := 127 },
      { Config.initial with nregs := 0, regOrder := [] },
      { Config.initial with nregs := 65, regOrder := List.replicate 65 "R", replyCap := 523 },
      { Config.initial with addrW := 34 }, { Config.initial with addrW := 4 }, { Config.initial with addrW := 68 },
      { Config.initial with replyCap := 259 }, { Config.initial with regOrder := [] },
      { Config.initial with textOff := 2 ^ 32 }, { Config.initial with dataOff := 2 ^ 32 },
      { Config.initial with bssOff := 2 ^ 32 }].all fun c =>
        refusedBy (step { State.reset with cfg := c }) == some .badConfiguration) = true ∧
    ([{ Config.initial with nregs := 65, regOrder := List.replicate 65 "R", replyCap := 524 },
      { Config.initial with addrW := 8 }, { Config.initial with addrW := 64 },
      { Config.initial with replyCap := 260, textOff := 2 ^ 32 - 1 }].all Config.valid) = true := by decide +kernel
/-- ResetSetsEveryElement: from WAITACK, and from a code without a state. -/
theorem test_witness_reset :
    (nowBoundary (withBoundary { rst := .asserted } (waiting []))).rst = .asserted ∧
    (ran (step (withBoundary { rst := .asserted } (atState 6 [])))).isSome = true := by decide
/-- ResetInsideAStepCutsItsOutput: a command step with its request issued and with it not. -/
theorem test_witness_reset_inside :
    (nowBoundary (withBoundary { rst := .during 2 true } (copying .fault (atDigit [0x6D] 0x6D 6 0x64)))).rst =
      .during 2 true ∧
    (ran (step (withBoundary { rst := .during 2 true } (copying .fault (atDigit [0x6D] 0x6D 6 0x64))))).map
      (fun t => (t.st, t.ports)) = some (0, [.rx 0x64, .tx 0x2B, .copy 0 0 .fault, .tx 0x24]) ∧
    (ran (step (withBoundary { rst := .during 1 false } (copying .fault (atDigit [0x6D] 0x6D 6 0x64))))).map
      (fun t => (t.ports, t.copyAnswers)) = some ([.rx 0x64, .tx 0x2B], [.fault]) := by decide
/-- StepSignalsAtMostOneEvent, StepOutputFollowsItsByte, ConfigurationIsFixed: a step that goes on, with an event and
output (EV4), and one without either. -/
theorem test_witness_steps :
    (∃ t, step (atDigit [0x5A] 0x5A 5 0x61) = .next t ∧ t.events = [.ev4]) ∧
    ∃ t, step (atState 0 [0x24]) = .next t ∧ t.events = [] := ⟨⟨_, rfl, by decide⟩, ⟨_, rfl, by decide⟩⟩
/-- OnlyKillOrOperatorQuits: both ways into QUIT. -/
theorem test_witness_quits :
    ((atDigit [0x6B] 0x6B 6 0x62).st ≠ 5 ∧ (ran (step (atDigit [0x6B] 0x6B 6 0x62))).map (·.st) = some 5) ∧
    (ran (step (withBoundary { quitReq := true } (atState 0 [])))).map (·.st) = some 5 := by decide

/-- The invariant in WAITACK with a cached reply. -/
theorem test_witness_invariant : RunInv (waiting [0x2D]) where
  cfg := by decide
  phase := rfl
  cmd := ⟨by decide, by decide⟩
  reply := ⟨by decide, by decide⟩
  checksum := by simp [ChecksumOk, waiting, atState]
  payload := by simp [PayloadOk, storedPayload, waiting, atState, State.reset, State.resetWith]
  cache := fun _ => ⟨[0x4F, 0x4B], by decide, by decide⟩
  ack := fun _ => rfl
/-- EveryStepKeepsTheInvariant, FramerNeverStopsByItself: that state goes on, freely answered. -/
theorem test_witness_invariant_step : (ran (step (waiting [0x2D]))).isSome = true ∧ FreeAnswers (waiting [0x2D]) :=
  ⟨by decide, rfl, rfl⟩
/-- The invariant in CMDREAD, with a payload byte stored. -/
theorem test_witness_invariant_payload :
    RunInv { atState 1 [0x23] with cmd := [0x3F], cmdLen := 1, csumAcc := 0x3F } where
  cfg := by decide
  phase := rfl
  cmd := ⟨by decide, by decide⟩
  reply := ⟨by decide, by decide⟩
  checksum := fun _ => by decide
  payload := by simp [PayloadOk, storedPayload]
  cache := fun h => by cases h
  ack := fun h => by cases h
/-- ChecksumRoundTripReachesDispatch: `$?#3f`, and the empty payload. -/
theorem test_witness_round_trip :
    (atState 0 [0x24, 0x3F, 0x23, 0x33, 0x66]).rx = 0x24 :: ([0x3F] ++ 0x23 :: (hex2 (csum [0x3F]) ++ [])) ∧
    (0x23 : Byte) ∉ [(0x3F : Byte)] ∧ [(0x3F : Byte)].length ≤ Config.initial.cmdCap ∧
    (atState 0 [0x24, 0x23, 0x30, 0x30]).rx = 0x24 :: ([] ++ 0x23 :: (hex2 (csum []) ++ [])) ∧
    (atState 0 []).schedule = [] := by decide
/-- ChecksumRejectionIsNaked: `$?#3e`. -/
theorem test_witness_rejection :
    (atState 0 [0x24, 0x3F, 0x23, 0x33, 0x65]).rx = 0x24 :: ([0x3F] ++ 0x23 :: 0x33 :: 0x65 :: []) ∧
    nib 0x33 = some 3 ∧ nib 0x65 = some 14 ∧ 16 * 3 + 14 ≠ (csum [0x3F]).toNat := by decide
/-- RetransmissionIsIdempotent: `---+`, and `+` alone. -/
theorem test_witness_retransmission :
    (waiting [0x2D, 0x2D, 0x2D, 0x2B]).rx = List.replicate 3 0x2D ++ 0x2B :: [] ∧
    (waiting [0x2B]).rx = List.replicate 0 0x2D ++ 0x2B :: [] ∧ (waiting [0x2B]).schedule = [] ∧
    (waiting [0x2B]).cfg.valid = true := by decide

end Sys2Proof.Tests
end

section
/-! SUPPORT. The two statements of 00_scope.md: what a configuration outside R7 does to a step, and the step that takes
a byte. -/

namespace Sys2Proof

/-- The constraints of R7 as propositions. -/
theorem Config.valid_iff (c : Config) :
    c.valid = true ↔
      512 ≤ c.cmdCap ∧ c.memCap = 128 ∧ 1 ≤ c.nregs ∧ 8 * c.nregs + 4 ≤ c.replyCap ∧
      c.addrW % 4 = 0 ∧ 8 ≤ c.addrW ∧ c.addrW ≤ 64 ∧
      4 + max (2 * c.memCap) (max (8 * c.nregs) (16 + 3 * c.addrW / 4)) ≤ c.replyCap ∧
      c.regOrder.length = c.nregs ∧
      c.textOff < 2 ^ c.addrW ∧ c.dataOff < 2 ^ c.addrW ∧ c.bssOff < 2 ^ c.addrW :=
  decide_eq_true_iff

/-- A byte decodes to a row only in one of the six states of R22. -/
theorem phase_of_decodeRx {c : RxContext} {b : Byte} {i : Instr} (h : decodeRx c b = .ok i) :
    ∃ ph, c.st = phaseCode ph := by
  cases hp : phaseOf c.st with
  | none => simp [decodeRx, hp] at h
  | some ph => exact ⟨ph, phaseCode_of_phaseOf hp⟩

end Sys2Proof

namespace Sys2Proof.Machine

/-- A configuration outside R7 is refused before the boundary is looked at (log entry 4). -/
theorem step_of_not_valid {s : State} (h : ¬ s.cfg.valid = true) : step s = .refused .badConfiguration :=
  if_neg h

/-- A state of R22 is legal, in WAITACK where it holds a reply: the converse of `illegal_eq_none`. -/
theorem illegal_of_phase {s : State} {ph : Phase} (hst : s.st = phaseCode ph)
    (hw : ph = .waitAck → s.replyValid = true) : illegal s = none := by
  unfold illegal
  rw [hst, phaseOf_phaseCode]
  cases ph with
  | waitAck => exact if_pos (hw rfl)
  | init | cmdRead | cksum1 | cksum2 | quit => rfl

/-- Outside QUIT and without the operator's quit, the byte first at the transport is taken and its row runs (R76). -/
theorem serve_byte (run : Instr → State → Host.Outcome State Fault Refusal) {s : State} {b : Byte}
    {rest : List Byte} {i : Instr} (hl : illegal s = none) (hq : s.st ≠ phaseCode .quit) (hrx : s.rx = b :: rest)
    (hd : decodeRx (rxContext s) b = .ok i) : serve run false s = run i (takeByte b rest s) := by
  simp [serve, hl, quitOutput, hq, hrx, hd]

/-- Settles O46: each alternative is the failure of one constraint of R7, so the configuration is not valid. -/
theorem badConfigurationIsRefused : Obligations.BadConfigurationIsRefused := by
  intro s hbad
  refine step_of_not_valid fun hv => ?_
  obtain ⟨hcmd, hmem, hregs, hdump, hnibbles, hmin, hmax, hreply, horder, htext, hdata, hbss⟩ :=
    s.cfg.valid_iff.1 hv
  omega

/-- Settles O41: a byte that decodes shows that `st` is a state, so behind the boundary `serve` takes the byte. -/
theorem stepRunsTheDecodedRow : Obligations.StepRunsTheDecodedRow := by
  intro s b rest i hcfg ⟨hrst, hquitReq⟩ hrx hquit hreply hdec
  obtain ⟨ph, hst⟩ := phase_of_decodeRx hdec
  have hlegal : illegal (enterBoundary s) = none :=
    illegal_of_phase hst fun hph => hreply (hst.trans (congrArg phaseCode hph))
  calc step s = serve exec (nowBoundary s).quitReq (enterBoundary s) := step_of_noReset hcfg hrst
    _ = serve exec false (enterBoundary s) := by rw [hquitReq]
    _ = exec i (takeByte b rest (enterBoundary s)) := serve_byte exec hlegal hquit hrx hdec

end Sys2Proof.Machine
end

section
/-! SUPPORT. What the texts of the replies are: printable, and short enough for the Reply Buffer (R205, R206). -/

namespace Sys2Proof

theorem csum_append (s t : List Byte) : csum (s ++ t) = csum s + csum t := by
  induction s with
  | nil => simp
  | cons b s ih => rw [List.cons_append, csum_cons, csum_cons, ih, BitVec.add_assoc]

end Sys2Proof

namespace Sys2Proof.Machine

@[simp] theorem printable_hexdig (n : Nibble) : printable (hexdig n) = true := by
  revert n; decide

@[simp] theorem all_printable_hex2 (v : Byte) : (hex2 v).all printable = true := by simp [hex2]

@[simp] theorem all_printable_hex8 (w : RegWord) : (hex8 w).all printable = true := by
  simp only [hex8, List.all_append, all_printable_hex2, Bool.and_self]

theorem all_printable_hexDigits (fuel v : Nat) : (hexDigits fuel v).all printable = true := by
  induction fuel generalizing v with
  | zero => rfl
  | succ fuel ih =>
    unfold hexDigits
    split
    · simp
    · simp [List.all_append, ih]

/-- A payload that a reply can have in a framer built with `c`: printable (R205), and within the longest of the four
kinds of payload, which are a memory dump, a register dump, the offsets and a literal text (R206). -/
structure ReplyPayload (c : Config) (p : List Byte) : Prop where
  printable : p.all printable = true
  length_le : p.length ≤ max (2 * c.memCap) (max (8 * c.nregs) (max (16 + 3 * c.addrW / 4) 3))

/-- The Reply Buffer has room for the frame of every reply (R7, R206). -/
theorem ReplyPayload.frame_fits {c : Config} {p : List Byte} (h : ReplyPayload c p) (hc : c.valid = true) :
    (frame p).length ≤ c.replyCap := by
  have hlen := h.length_le
  obtain ⟨-, -, -, -, -, -, -, hreply, -⟩ := c.valid_iff.1 hc
  rw [frame_length]
  omega

theorem replyPayload_of_text {c : Config} {p : List Byte} (hp : p.all printable = true) (hl : p.length ≤ 3) :
    ReplyPayload c p :=
  ⟨hp, by omega⟩

theorem replyPayload_registerDump {c : Config} {ws : List RegWord} (hl : ws.length = c.nregs) :
    ReplyPayload c (registerDump ws) where
  printable := List.all_flatMap.trans (List.all_eq_true.2 fun w _ => all_printable_hex8 w)
  length_le := by rw [registerDump, flatMap_hex8_length]; omega

theorem replyPayload_memoryDump {c : Config} {bs : List Byte} (hl : bs.length ≤ c.memCap) :
    ReplyPayload c (memoryDump bs) where
  printable := List.all_flatMap.trans (List.all_eq_true.2 fun b _ => all_printable_hex2 b)
  length_le := by rw [memoryDump, flatMap_hex2_length]; omega

theorem replyPayload_offsetsText (c : Config) : ReplyPayload c (offsetsText c) where
  printable := by
    have hlit : txtText.all printable = true ∧ txtData.all printable = true ∧ txtBss.all printable = true := by decide
    simp only [offsetsText, List.all_append, hlit, hexmin, all_printable_hexDigits, Bool.and_self]
  length_le := by
    have htext := hexmin_length_le c.addrW c.textOff
    have hdata := hexmin_length_le c.addrW c.dataOff
    have hbss := hexmin_length_le c.addrW c.bssOff
    simp only [offsetsText, txtText, txtData, txtBss, List.length_append, List.length_cons, List.length_nil]
    omega

end Sys2Proof.Machine
end

section
/-! SUPPORT. Which rows decoding selects, and where a step finds no state to go on from. -/

namespace Sys2Proof

/-- Decoding selects a row whose guard holds, with an operand of the row's byte class (R76). -/
theorem decodeRx_ok {c : RxContext} {b : Byte} {i : Instr} (h : decodeRx c b = .ok i) :
    appliesIn c i = true ∧ i.wf = true := by
  cases hp : phaseOf c.st with
  | none => simp [decodeRx, hp] at h
  | some ph =>
    cases ph <;> simp only [decodeRx, hp] at h
    case init => cases h; split <;> simp_all [appliesIn, Instr.wf]
    case cmdRead =>
      cases h
      split
      · simp [appliesIn, Instr.wf, hp]
      · split <;> simp_all [appliesIn, Instr.wf]
    case cksum1 => split at h <;> cases h <;> simp_all [appliesIn, Instr.wf]
    case cksum2 =>
      split at h <;> cases h
      · split <;> simp_all [appliesIn, Instr.wf]
      · simp_all [appliesIn, Instr.wf]
    case waitAck =>
      cases h
      split
      · simp [appliesIn, Instr.wf, hp]
      · split <;> simp_all [appliesIn, Instr.wf]
    case quit => cases h; simp [appliesIn, Instr.wf, hp]

end Sys2Proof

namespace Sys2Proof.Machine

theorem illegal_of_no_phase {s : State} (h : phaseOf s.st = none) : illegal s = some .illegalState := by
  simp [illegal, h]

theorem illegal_of_no_reply {s : State} (hst : s.st = phaseCode .waitAck) (hr : s.replyValid = false) :
    illegal s = some .waitAckWithoutReply := by
  simp [illegal, hst, phaseOf_phaseCode, hr]

theorem serve_of_illegal (run : Instr → State → Host.Outcome State Fault Refusal) (q : Bool) {s : State} {f : Fault}
    (h : illegal s = some f) : serve run q s = .fault f := by
  simp only [serve, h]

theorem serve_exec_cfg {q : Bool} {s t : State} (h : serve exec q s = .next t) : t.cfg = s.cfg := by
  obtain ⟨-, ⟨-, hrun⟩ | ⟨-, -, rfl⟩ | ⟨-, -, -, rfl⟩ | ⟨-, -, b, rest, i, -, -, hrun⟩⟩ := serve_next h
  · exact (exec_follows hrun).cfg
  · rfl
  · rfl
  · exact (exec_follows hrun).cfg

end Sys2Proof.Machine
end

section
/-! SUPPORT. The invariant of a run: one lemma per operation of the state, per row and for a step. -/

namespace Sys2Proof

/-- The states in which the accumulator is the checksum of the stored payload (R27). -/
def Phase.inFrame : Phase → Bool
  | .cmdRead | .cksum1 | .cksum2 => true
  | .init | .waitAck | .quit => false

end Sys2Proof

namespace Sys2Proof.Machine

theorem checksumOk_iff {s : State} {ph : Phase} (hst : s.st = phaseCode ph) :
    ChecksumOk s ↔ (ph.inFrame = true → s.csumAcc = csum (storedPayload s)) := by
  cases ph <;> simp [ChecksumOk, hst, phaseCode, Phase.inFrame]

theorem ackOk_iff {s : State} {ph : Phase} (hst : s.st = phaseCode ph) :
    AckOk s ↔ (ph = .waitAck → s.replyValid = true) := by
  cases ph <;> simp [AckOk, hst, phaseCode]

@[simp] theorem appendCommandByte_st (b : Byte) (s : State) : (appendCommandByte b s).st = s.st := by
  unfold appendCommandByte
  split <;> rfl

section
variable {s : State} (h : RunInv s)
include h

/-! The invariant reads neither the ports, the events, `hi` nor what waits for the next step. -/

theorem runInv_enterBoundary : RunInv (enterBoundary s) := { h with }
theorem runInv_takeByte (b : Byte) (rest : List Byte) : RunInv (takeByte b rest s) := { h with }
theorem runInv_emit (bs : List Byte) : RunInv (emit bs s) := { h with }
theorem runInv_signal (e : ErrorEvent) : RunInv (signal e s) := { h with }
theorem runInv_latchHi (n : Nibble) : RunInv (latchHi n s) := { h with }
theorem runInv_tookRegs (a : RegsAnswer) : RunInv (tookRegs a s) := { h with }
theorem runInv_tookCopy (p n : Nat) (a : CopyAnswer) : RunInv (tookCopy p n a s) := { h with }

/-- A state may be entered from a run where what the invariant says of that state holds. -/
theorem runInv_goto {ph : Phase} (hsum : ph.inFrame = true → s.csumAcc = csum (storedPayload s))
    (hack : ph = .waitAck → s.replyValid = true) : RunInv (goto ph s) :=
  { h with
    phase := by simp [PhaseOk, phaseOf_phaseCode]
    checksum := (checksumOk_iff (goto_st s ph)).2 hsum
    ack := (ackOk_iff (goto_st s ph)).2 hack }

theorem runInv_goto_init : RunInv (goto .init s) := runInv_goto h nofun nofun
theorem runInv_goto_quit : RunInv (goto .quit s) := runInv_goto h nofun nofun

/-- Within a frame the accumulator stays the checksum of the stored payload, whichever state comes next. -/
theorem runInv_goto_of_inFrame {ph ph' : Phase} (hst : s.st = phaseCode ph) (hin : ph.inFrame = true)
    (hne : ph' ≠ .waitAck) : RunInv (goto ph' s) :=
  runInv_goto h (fun _ => (checksumOk_iff hst).1 h.checksum hin) (absurd · hne)

theorem runInv_beginCommand : RunInv (beginCommand s) :=
  { h with
    cmd := ⟨Nat.zero_le _, h.cmd.2⟩
    checksum := fun _ => by simp
    payload := by simp [PayloadOk] }

theorem runInv_storeByte {b : Byte} (hroom : s.cmdLen < s.cfg.cmdCap) (hb : b ≠ chHash) :
    RunInv (storeByte b s) := by
  obtain ⟨hcursor, hcap⟩ := h.cmd
  have hpayload := storedPayload_storeByte b hcursor
  have hlength := overwrite_length [b] hcursor
  refine { h with cmd := ?_, checksum := fun hst => ?_, payload := ?_ }
  · simp only [CmdOk, storeByte_cmd, storeByte_cmdLen, storeByte_cfg, hlength, List.length_singleton]
    omega
  · simp [hpayload, csum_append, h.checksum hst]
  · simpa [PayloadOk, hpayload] using ⟨h.payload, hb.symm⟩

theorem runInv_appendCommandByte {b : Byte} (hb : b ≠ chHash) : RunInv (appendCommandByte b s) := by
  unfold appendCommandByte
  split
  · exact runInv_storeByte h ‹_› hb
  · exact runInv_signal h .ev7

/-- The reply path leads to WAITACK with the cached reply that R28 and R135 ask for. -/
theorem runInv_sendReply {p : List Byte} (hp : ReplyPayload s.cfg p) : RunInv (sendReply p s) := by
  have hfits := hp.frame_fits h.cfg
  have hlength := overwrite_length (frame p) (Nat.zero_le s.reply.length)
  obtain ⟨-, hcap⟩ := h.reply
  refine { h with
    phase := by simp [PhaseOk, phaseOf_phaseCode]
    reply := ?_
    checksum := (checksumOk_iff (sendReply_st s p)).2 nofun
    cache := fun _ => ⟨p, cachedReply_sendReply p s, hp.printable⟩
    ack := fun _ => rfl }
  simp only [ReplyOk, sendReply_reply, sendReply_replyLen, sendReply_cfg, hlength]
  omega

theorem runInv_replyMemory {x : Option (List Byte)} (hx : ∀ bs, x = some bs → bs.length ≤ s.cfg.memCap) :
    RunInv (replyMemory x s) := by
  cases x with
  | none => exact runInv_sendReply (runInv_signal h .ev5) (replyPayload_of_text (by decide) (by decide))
  | some bs => exact runInv_sendReply h (replyPayload_memoryDump (hx bs rfl))

theorem runInv_runCommand {c : Command} {t : State} (ht : runCommand c s = .next t) : RunInv t := by
  cases c <;> simp only [runCommand] at ht
  case selectThread | stopReason =>
    cases ht; exact runInv_sendReply h (replyPayload_of_text (by decide) (by decide))
  case queryOffsets => cases ht; exact runInv_sendReply h (replyPayload_offsetsText s.cfg)
  case queryOther | unknown =>
    cases ht; exact runInv_sendReply (runInv_signal h .ev4) (replyPayload_of_text (by decide) (by decide))
  case readRegisters r =>
    obtain ⟨cpu, ws, hl, rfl⟩ := execReadRegisters_next ht
    exact runInv_sendReply (runInv_tookRegs h _) (replyPayload_registerDump hl)
  case readMemory a l =>
    obtain ⟨x, hl, rfl⟩ := execReadMemory_next ht
    exact runInv_replyMemory (runInv_tookCopy h _ _ _) fun bs hbs => (hl bs hbs).trans_le (Nat.min_le_right _ _)
  case kill => cases ht; exact runInv_goto_quit h

/-- The rows of R76 keep the invariant where they apply. -/
theorem runInv_exec {i : Instr} {t : State} (hin : appliesIn (rxContext s) i = true) (hw : i.wf = true)
    (ht : exec i s = .next t) : RunInv t := by
  have hphase {ph : Phase} (hp : (phaseOf s.st == some ph) = true) : s.st = phaseCode ph :=
    phaseCode_of_phaseOf (by simpa using hp)
  cases i <;> simp only [exec] at ht
  case initNoise | cksum1Garbage | cksum2Garbage => cases ht; exact runInv_signal h _
  case frameStart => cases ht; exact runInv_goto (runInv_beginCommand h) (fun _ => by simp) nofun
  case frameEnd => cases ht; exact runInv_goto_of_inFrame h (hphase hin) rfl nofun
  case cksumHi n => cases ht; exact runInv_goto_of_inFrame (runInv_latchHi h n) (hphase hin) rfl nofun
  case payloadStore b | payloadDrop b =>
    cases ht
    have hst := (appendCommandByte_st b s).trans (hphase (Bool.and_eq_true_iff.1 hin).1)
    exact runInv_goto_of_inFrame (runInv_appendCommandByte h (bne_iff_ne.1 hw)) hst rfl nofun
  case cksumLoBad => cases ht; exact runInv_goto_init (runInv_signal (runInv_emit h _) _)
  case waitackOther => cases ht; exact runInv_goto_init (runInv_signal (runInv_emit h _) _)
  case cksumLoGood => exact runInv_runCommand (runInv_emit h _) ht
  case ackRx => cases ht; exact runInv_goto_init h
  case nakRx =>
    unfold execNakRx at ht
    split at ht
    · cases ht; exact runInv_goto (runInv_emit h _) nofun fun _ => ‹_›
    · cases ht
  case quitHalt => cases ht; exact h
  all_goals cases hin

theorem runInv_serve {q : Bool} {t : State} (ht : serve exec q s = .next t) : RunInv t := by
  obtain ⟨-, ⟨-, hrun⟩ | ⟨-, -, rfl⟩ | ⟨-, -, -, rfl⟩ | ⟨-, -, b, rest, i, -, hdec, hrun⟩⟩ := serve_next ht
  · cases hrun; exact h
  · exact runInv_goto_quit h
  · exact h
  · obtain ⟨hin, hw⟩ := decodeRx_ok hdec
    exact runInv_exec (runInv_takeByte h b rest) hin hw hrun

end

theorem runInv_resetWith {c : Config} (hc : c.valid = true) : RunInv (State.resetWith c) where
  cfg := hc
  phase := rfl
  cmd := ⟨Nat.le_refl 0, Nat.zero_le _⟩
  reply := ⟨Nat.le_refl 0, Nat.zero_le _⟩
  checksum := fun _ => rfl
  payload := List.not_mem_nil
  cache := nofun
  ack := nofun

theorem runInv_resetElements {s : State} (hc : s.cfg.valid = true) : RunInv (resetElements s) :=
  { runInv_resetWith hc with }

theorem runInv_cutShort {s : State} (hc : s.cfg.valid = true) (k : Nat) (r : Bool) (u : State) :
    RunInv (cutShort k r s u) :=
  { runInv_resetWith hc with }

end Sys2Proof.Machine
end

section
/-! SUPPORT. The statements of 10_state.md. -/

namespace Sys2Proof.Machine

/-- Settles O55: a step that goes on serves the boundary, where every row keeps the invariant, or ends in the state of
a reset. -/
theorem everyStepKeepsTheInvariant : Obligations.EveryStepKeepsTheInvariant := by
  intro s t h hstep
  obtain ⟨hcfg, ⟨-, hserve⟩ | rfl | ⟨k, r, u, -, rfl⟩⟩ := step_next hstep
  · exact runInv_serve (runInv_enterBoundary h) hserve
  · exact runInv_resetElements hcfg
  · exact runInv_cutShort (s := enterBoundary s) hcfg k r u

/-- Settles O45: behind the boundary `serve` finds the state illegal before it looks at anything else. -/
theorem illegalStatesFault : Obligations.IllegalStatesFault := by
  intro s hcfg hreset
  rw [step_of_noReset hcfg hreset]
  refine ⟨fun hst => ?_, fun hst hreply => ?_⟩
  · have hphase : phaseOf s.st = none := by rcases hst with hst | hst <;> rw [hst] <;> rfl
    exact serve_of_illegal exec _ (illegal_of_no_phase hphase)
  · exact serve_of_illegal exec _ (illegal_of_no_reply hst hreply)

/-- Settles O53: the rows keep the configuration (`exec_follows`), and so does reset. -/
theorem configurationIsFixed : Obligations.ConfigurationIsFixed := by
  intro s t hstep
  obtain ⟨-, ⟨-, hserve⟩ | rfl | ⟨k, r, u, -, rfl⟩⟩ := step_next hstep
  · exact (serve_exec_cfg hserve).trans (enterBoundary_cfg s)
  · rfl
  · rfl

/-- Settles O47: each value is the one that `State.resetWith` writes. -/
theorem resetLeavesTheStatedValues : Obligations.ResetLeavesTheStatedValues :=
  fun _ => ⟨rfl, rfl, rfl, rfl, rfl, rfl, rfl, rfl, rfl, rfl⟩

/-- Settles O56: empty buffers meet every clause of the invariant, and R7 admits the configuration of `State.reset`. -/
theorem resetMeetsTheInvariant : Obligations.ResetMeetsTheInvariant :=
  ⟨fun _ => runInv_resetWith, runInv_resetWith (by decide)⟩

end Sys2Proof.Machine
end

section
/-! SUPPORT. The statements of 20_memory.md: what `m` replies to a copy that faults, and the order of a step's transfers,
also where reset cuts the step short or a collaborator leaves the framer in it. -/

namespace Sys2Proof.Machine

/-- The reply path is the state that the statements name by the reply's bytes (R131, R140). -/
theorem sendReply_eq_repliedWith (p : List Byte) (s : State) : sendReply p s = repliedWith (frame p) s := by
  simp [sendReply, send, cacheReply, emit, record, goto, repliedWith, phaseCode]

/-- A listed answer within its contract is the result of the request (R39). -/
theorem askCopy_of_answer {s : State} {a : CopyAnswer} {more : List CopyAnswer} {p n : Nat}
    {x : Option (List Byte)} (hs : s.copyAnswers = a :: more) (hx : copyReply n a = some x) :
    askCopy p n s = .ok (x, tookCopy p n a s) := by
  simp only [askCopy, hs, hx]

/-- `m` replies to the result of its request (R170). -/
theorem exec_readMemory_of_ask {a : List Byte} {l : Option (List Byte)} {s t : State} {x : Option (List Byte)}
    (h : askCopy (memAddr s a) (memLen s l) s = .ok (x, t)) :
    exec (.readMemory a l) s = .next (replyMemory x t) := by
  simp only [exec, execReadMemory, h]

/-- `$E02#a7`, the reply to a copy that faults (R58). -/
theorem frame_txtE02 : frame txtE02 = [0x24, 0x45, 0x30, 0x32, 0x23, 0x61, 0x37] := by decide

/-- Settles O35: `Fault` is within the contract of every request, and `m` replies to it with the frame of `E02`. -/
theorem readMemoryFaultRepliesE02 : Obligations.ReadMemoryFaultRepliesE02 := by
  intro a l s more hanswer
  have hask : askCopy (memAddr s a) (memLen s l) s =
      .ok (none, tookCopy (memAddr s a) (memLen s l) .fault s) := askCopy_of_answer hanswer rfl
  rw [exec_readMemory_of_ask hask, replyMemory, sendReply_eq_repliedWith, frame_txtE02]
  simp only [signal, tookCopy, hanswer, List.tail_cons]

/-- The state in which a collaborator that breaks its contract leaves the framer (R242). -/
def stuckState : Fault → Option State
  | .regsStuck t | .copyStuck t => some t
  | .illegalState | .waitAckWithoutReply => none

/-- The state a step comes to: its next state, or the one in which it is stuck. A reset inside the step cuts off there
(R251). -/
def reached : Host.Outcome State Fault Refusal → Option State
  | .next t => some t
  | .fault f => stuckState f
  | .refused _ => none

@[simp] theorem reached_next (t : State) : reached (.next t) = some t := rfl
@[simp] theorem reached_fault (f : Fault) : reached (.fault f) = stuckState f := rfl

/-- An illegal state is a fault before any request. -/
theorem stuckState_of_illegal {s : State} {f : Fault} (h : illegal s = some f) : stuckState f = none := by
  unfold illegal at h
  split at h
  · cases h; rfl
  · split at h <;> cases h
    rfl
  all_goals cases h

/-- A command is stuck only after its request, which takes no byte. -/
theorem runCommand_stuck_follows {c : Command} {s t : State} {f : Fault} (h : runCommand c s = .fault f)
    (hf : stuckState f = some t) : Follows s t := by
  cases c <;> simp only [runCommand] at h
  case readRegisters r =>
    unfold execReadRegisters at h
    split at h
    · cases h
      obtain ⟨a, -, -, -, rfl⟩ := askRegs_error ‹_›
      cases hf; exact follows_tookRegs a s
    · cases h
  case readMemory a l =>
    unfold execReadMemory at h
    split at h
    · cases h
      obtain ⟨x, -, -, -, rfl⟩ := askCopy_error ‹_›
      cases hf; exact follows_tookCopy _ _ x s
    · cases h
  all_goals cases h

/-- A row faults by the command it runs, or for want of a reply. -/
theorem exec_stuck_follows {i : Instr} {s t : State} {f : Fault} (h : exec i s = .fault f)
    (hf : stuckState f = some t) : Follows s t := by
  cases i <;> simp only [exec] at h
  case cksumLoGood => exact (follows_emit _ _).trans (runCommand_stuck_follows h hf)
  case nakRx =>
    unfold execNakRx at h
    split at h <;> cases h
    cases hf
  case readRegisters r => exact runCommand_stuck_follows (c := .readRegisters r) h hf
  case readMemory a l => exact runCommand_stuck_follows (c := .readMemory a l) h hf
  all_goals cases h

/-- The frame of every instruction (`exec_follows`), also of one that is stuck. -/
theorem exec_reached_follows {i : Instr} {s t : State} (h : reached (exec i s) = some t) : Follows s t := by
  cases ho : exec i s with
  | next u => rw [ho] at h; cases h; exact exec_follows ho
  | fault f => rw [ho] at h; exact exec_stuck_follows ho h
  | refused r => rw [ho] at h; cases h

/-- What a step without reset comes to, as `serve_next` says it of a step that goes on. -/
theorem serve_reached {run : Instr → State → Host.Outcome State Fault Refusal} {q : Bool} {s t : State}
    (h : reached (serve run q s) = some t) :
    reached (run .quitHalt s) = some t ∨ t = operatorQuit s ∨ t = s ∨
      ∃ b rest i, s.rx = b :: rest ∧ reached (run i (takeByte b rest s)) = some t := by
  unfold serve at h
  split at h
  · rw [reached_fault, stuckState_of_illegal ‹_›] at h; cases h
  · split at h
    · exact .inl h
    · split at h
      · cases h; exact .inr (.inl rfl)
      · split at h
        · cases h; exact .inr (.inr (.inl rfl))
        · split at h
          · exact .inr (.inr (.inr ⟨_, _, _, ‹_›, h⟩))
          · cases h

/-- A reset inside a step leaves the elements reset, or cuts off what the step came to (R251). -/
theorem resetDuring_next {k : Nat} {r : Bool} {s t : State} {o : Host.Outcome State Fault Refusal}
    (h : resetDuring k r s o = .next t) :
    t = resetElements s ∨ ∃ u, reached o = some u ∧ t = cutShort k r s u := by
  cases o with
  | next u => cases h; exact .inr ⟨u, rfl, rfl⟩
  | fault f =>
    cases f with
    | regsStuck u | copyStuck u => cases h; exact .inr ⟨u, rfl, rfl⟩
    | illegalState | waitAckWithoutReply => cases h; exact .inl rfl
  | refused e => cases h

/-- A step that goes on ends with what `serve` came to, whole or cut short, or with a reset alone. -/
theorem step_next_reached {s t : State} (h : step s = .next t) :
    t = resetElements (enterBoundary s) ∨
    ∃ u, reached (serve exec (nowBoundary s).quitReq (enterBoundary s)) = some u ∧
      (t = u ∨ ∃ k r, t = cutShort k r (enterBoundary s) u) := by
  unfold step runStep at h
  split at h
  · unfold boundaryStep at h
    split at h
    · exact .inr ⟨t, congrArg reached h, .inl rfl⟩
    · cases h; exact .inl rfl
    · rename_i k r _
      exact (resetDuring_next h).imp_right fun ⟨u, hu, ht⟩ => ⟨u, hu, .inr ⟨k, r, ht⟩⟩
  · cases h

/-- From `s`, with the boundary's bytes at the transport, to `t` the record of the ports has grown by nothing and no byte
was taken, or by the byte first at the transport and then by no other byte taken (R62, R63). -/
def TakesAtMostOneByte (s t : State) : Prop :=
  (t.ports = s.ports ∧ t.rx = s.rx) ∨
  ∃ b d, t.ports = s.ports ++ .rx b :: d ∧ s.rx = b :: t.rx ∧ ∀ c, .rx c ∉ d

/-- A row's own transfers follow the byte that it takes. -/
theorem takesAtMostOneByte_of_follows {s t : State} {b : Byte} {rest : List Byte} (hrx : s.rx = b :: rest)
    (h : Follows (takeByte b rest s) t) : TakesAtMostOneByte s t := by
  obtain ⟨d, hd, hfree⟩ := h.ports
  exact .inr ⟨b, d, by simpa using hd, by rw [hrx, h.rx, takeByte_rx], hfree⟩

theorem serve_takesAtMostOneByte {q : Bool} {s t : State} (h : reached (serve exec q s) = some t) :
    TakesAtMostOneByte s t := by
  obtain hquit | rfl | rfl | ⟨b, rest, i, hrx, hrun⟩ := serve_reached h
  · cases hquit; exact .inl ⟨rfl, rfl⟩
  · exact .inl ⟨rfl, rfl⟩
  · exact .inl ⟨rfl, rfl⟩
  · exact takesAtMostOneByte_of_follows hrx (exec_reached_follows hrun)

/-- A cut keeps the byte that the step took, and adds none (R251). -/
theorem TakesAtMostOneByte.cutShort {s u : State} (h : TakesAtMostOneByte s u) (k : Nat) (r : Bool) :
    TakesAtMostOneByte s (cutShort k r s u) := by
  obtain ⟨hports, hrx⟩ | ⟨b, d, hports, hrx, hfree⟩ := h
  · exact .inl ⟨by simp [Machine.cutShort, hports, cutTransfers], hrx⟩
  · refine .inr ⟨b, cutTransfers k r d, ?_, hrx, fun c => (cutTransfers_rx k r d c).not.2 (hfree c)⟩
    simp [Machine.cutShort, hports, cutTransfers_append_rx]

/-- Settles O52: a row's own transfers take no byte (`exec_reached_follows`), so the one byte that `serve` takes comes
first, and a reset only cuts off what follows it. -/
theorem stepOutputFollowsItsByte : Obligations.StepOutputFollowsItsByte := by
  intro s t hstep
  change TakesAtMostOneByte (enterBoundary s) t
  obtain rfl | ⟨u, hu, rfl | ⟨k, r, rfl⟩⟩ := step_next_reached hstep
  · exact .inl ⟨rfl, rfl⟩
  · exact serve_takesAtMostOneByte hu
  · exact (serve_takesAtMostOneByte hu).cutShort k r

end Sys2Proof.Machine
end

section
/-! SUPPORT. The one equivalence behind the statements of 30_encoding.md on input bytes: decoding gives a row exactly
where the row applies and the byte is in its class. -/

namespace Sys2Proof

/-- A lowercase digit reads back as its nibble (R112). -/
@[simp] theorem nib_hexdig (n : Nibble) : nib (hexdig n) = some n := by
  revert n; decide

/-- The declared checksum is below 256, so the word compares as the number does (R109, R128). -/
theorem declared_eq_iff {hi lo : Nibble} {v : Byte} :
    declared hi lo = v ↔ 16 * hi.toNat + lo.toNat = v.toNat := by
  have hlt : 16 * hi.toNat + lo.toNat < 2 ^ 8 := by omega
  rw [declared, ← BitVec.toNat_inj, BitVec.toNat_ofNat, Nat.mod_eq_of_lt hlt]

theorem phaseOf_eq_some {st : BitVec 3} {ph : Phase} : phaseOf st = some ph ↔ st = phaseCode ph :=
  ⟨phaseCode_of_phaseOf, fun h => h ▸ phaseOf_phaseCode ph⟩

theorem phaseOf_eq_none {st : BitVec 3} : phaseOf st = none ↔ st = 6 ∨ st = 7 := by
  revert st; decide

/-- Byte `b` is in the row's byte class (R76), with the row's operand read from it. QUIT_HALT looks at no byte, and a
command is read from no single byte. -/
def Instr.Reads (b : Byte) : Instr → Prop
  | .frameStart => b = chDollar
  | .initNoise x => b ≠ chDollar ∧ x = b
  | .frameEnd => b = chHash
  | .payloadStore x | .payloadDrop x => b ≠ chHash ∧ x = b
  | .cksumHi n | .cksumLoBad n | .cksumLoGood n => nib b = some n
  | .cksum1Garbage x | .cksum2Garbage x => nib b = none ∧ x = b
  | .ackRx => b = chPlus
  | .nakRx => b = chMinus
  | .waitackOther x => b ≠ chPlus ∧ b ≠ chMinus ∧ x = b
  | .quitHalt => True
  | .selectThread _ | .queryOffsets | .queryOther _ | .stopReason _ | .readRegisters _ | .readMemory _ _
  | .kill _ | .unknown _ => False

/-- The row that decoding selects reads the byte. -/
theorem reads_of_decodeRx {c : RxContext} {b : Byte} {i : Instr} (h : decodeRx c b = .ok i) : i.Reads b := by
  obtain ⟨ph, hst⟩ := phase_of_decodeRx h
  cases ph <;> simp only [decodeRx, hst, phaseOf_phaseCode] at h
  case init | cmdRead | waitAck => cases h; split_ifs <;> simp_all [Instr.Reads]
  case cksum1 => split at h <;> cases h <;> simp_all [Instr.Reads]
  case cksum2 =>
    split at h <;> cases h
    · split_ifs <;> assumption
    · simp_all [Instr.Reads]
  case quit => cases h; trivial

/-- A row that applies and reads the byte is the row that decoding selects. -/
theorem decodeRx_of_reads {c : RxContext} {b : Byte} {i : Instr} (hin : appliesIn c i = true) (hb : i.Reads b) :
    decodeRx c b = .ok i := by
  cases i <;> simp_all [appliesIn, Instr.Reads, decodeRx]

/-- R76 at once: decoding gives a row exactly where its state and guard hold and the byte is in its class. -/
theorem decodeRx_eq_ok_iff {c : RxContext} {b : Byte} {i : Instr} :
    decodeRx c b = .ok i ↔ appliesIn c i = true ∧ i.Reads b :=
  ⟨fun h => ⟨(decodeRx_ok h).1, reads_of_decodeRx h⟩, fun ⟨hin, hb⟩ => decodeRx_of_reads hin hb⟩

/-- Decoding fails exactly where `st` is none of the six states (R22). -/
theorem decodeRx_eq_error_iff {c : RxContext} {b : Byte} {e : DecodeError} :
    decodeRx c b = .error e ↔ phaseOf c.st = none := by
  cases hp : phaseOf c.st with
  | none => cases e; simp [decodeRx, hp]
  | some ph =>
    cases ph <;> simp only [decodeRx, hp]
    case cksum1 | cksum2 => split <;> simp
    all_goals simp

/-- No command applies to an input byte. -/
theorem isCommand_of_appliesIn {c : RxContext} {i : Instr} (hin : appliesIn c i = true) : i.isCommand = false := by
  cases i
  case selectThread | queryOffsets | queryOther | stopReason | readRegisters | readMemory | kill | unknown => cases hin
  all_goals rfl

/-- A well-formed row but QUIT_HALT is encoded as one byte, which it reads. -/
theorem exists_encode_reads {i : Instr} (hc : i.isCommand = false) (hw : i.wf = true) (hq : i ≠ .quitHalt) :
    ∃ b, encode i = [b] ∧ i.Reads b := by
  cases i
  case quitHalt => exact absurd rfl hq
  case selectThread | queryOffsets | queryOther | stopReason | readRegisters | readMemory | kill | unknown => cases hc
  all_goals exact ⟨_, rfl, by simp_all [Instr.Reads, Instr.wf]⟩

/-- Decoding gives back every well-formed row that applies, but QUIT_HALT, from its encoding. -/
theorem exists_encode_decodeRx {c : RxContext} {i : Instr} (hw : i.wf = true) (hin : appliesIn c i = true)
    (hq : i ≠ .quitHalt) : ∃ b, encode i = [b] ∧ decodeRx c b = .ok i := by
  obtain ⟨b, he, hb⟩ := exists_encode_reads (isCommand_of_appliesIn hin) hw hq
  exact ⟨b, he, decodeRx_of_reads hin hb⟩

/-- A well-formed row that applies is the one decoded from its byte, so no two of them share a byte. -/
theorem decodeRx_of_encode {c : RxContext} {b : Byte} {i : Instr} (hw : i.wf = true) (hin : appliesIn c i = true)
    (he : encode i = [b]) : decodeRx c b = .ok i := by
  have hq : i ≠ .quitHalt := by rintro rfl; cases he
  obtain ⟨b', he', hdec⟩ := exists_encode_decodeRx hw hin hq
  obtain rfl : b' = b := List.singleton_inj.1 (he'.symm.trans he)
  exact hdec

end Sys2Proof
end

section
/-! SUPPORT. The statements of 30_encoding.md on input bytes. -/

namespace Sys2Proof.Machine

/-- Settles O12: the row reads its one byte, so decoding selects the row. -/
theorem inputRowDecodeOfEncode : Obligations.InputRowDecodeOfEncode :=
  fun _ _ => exists_encode_decodeRx

/-- Settles O8: each clause is `decodeRx_eq_ok_iff` at its row. -/
theorem inputRowsOfTheTable : Obligations.InputRowsOfTheTable := by
  intro c b x n
  simp only [decodeRx_eq_ok_iff, decodeRx_eq_error_iff]
  simp [appliesIn, Instr.Reads, phaseOf_eq_some, phaseOf_eq_none, phaseCode, declared_eq_iff, and_assoc,
    and_left_comm, and_comm]

/-- Settles O9: in one of the six states decoding does not fail, and a row whose byte is `b` is the one decoded. -/
theorem everyByteHasOneRow : Obligations.EveryByteHasOneRow := by
  intro c b hst
  cases hdec : decodeRx c b with
  | error e => simp [decodeRx_eq_error_iff.1 hdec] at hst
  | ok i =>
    obtain ⟨hin, hw⟩ := decodeRx_ok hdec
    refine ⟨i, rfl, hw, hin, isCommand_of_appliesIn hin, fun j hwj hinj hj => ?_⟩
    exact Except.ok.inj ((decodeRx_of_encode hwj hinj hj).symm.trans hdec)

end Sys2Proof.Machine
end

section
/-! SUPPORT. The laws of the codec (40_codec.md): what a hex digit stands for, what a hex field reads as, and the digits
that the framer writes. -/

namespace Sys2Proof

/-- The checksum is the sum in the ring of bytes (R103), so the library's laws of sums hold for it. -/
theorem csum_eq_sum (s : List Byte) : csum s = s.sum := by
  induction s with
  | nil => rfl
  | cons b s ih => rw [csum_cons, ih, List.sum_cons]

theorem csum_toNat (s : List Byte) : (csum s).toNat = (s.map BitVec.toNat).sum % 256 := by
  induction s with
  | nil => rfl
  | cons b s ih => simp [BitVec.toNat_add, ih]

theorem csum_append_toNat (s t : List Byte) : (csum (s ++ t)).toNat = ((csum s).toNat + (csum t).toNat) % 256 := by
  rw [csum_append, BitVec.toNat_add]

theorem csum_perm {s t : List Byte} (h : s.Perm t) : csum s = csum t := by
  rw [csum_eq_sum, csum_eq_sum, h.sum_eq]

/-- What one byte gains and another loses is not detected (R104). -/
theorem csum_add_sub (a b c : List Byte) (x y k : Byte) :
    csum (a ++ (x + k) :: b ++ (y - k) :: c) = csum (a ++ x :: b ++ y :: c) := by
  simp only [csum_append, csum_cons]
  ring

/-- A value below 16 is the nibble that holds it. -/
theorem ofNat_eq_nibble_iff {k : Nat} (hk : k < 16) {n : Nibble} : BitVec.ofNat 4 k = n ↔ n.toNat = k := by
  rw [← BitVec.toNat_inj, BitVec.toNat_ofNat, Nat.mod_eq_of_lt hk, eq_comm]

/-- The three ranges of R100. -/
theorem nib_eq_some_iff {b : Byte} {n : Nibble} :
    nib b = some n ↔
      (0x30 ≤ b.toNat ∧ b.toNat ≤ 0x39 ∧ n.toNat = b.toNat - 0x30) ∨
      (0x41 ≤ b.toNat ∧ b.toNat ≤ 0x46 ∧ n.toNat = b.toNat - 0x41 + 10) ∨
      (0x61 ≤ b.toNat ∧ b.toNat ≤ 0x66 ∧ n.toNat = b.toNat - 0x61 + 10) := by
  simp only [nib]
  split_ifs
  case neg => simp only [false_iff]; omega
  all_goals rw [Option.some_inj, ofNat_eq_nibble_iff (by omega)]; omega

/-- Among the digits that the framer writes, only 0 is written `'0'` (R108). -/
theorem hexdig_eq_zero_iff {n : Nibble} : hexdig n = 0x30 ↔ n = 0 := by
  revert n; decide

/-- The two nibbles of a byte make up the byte (R105). -/
theorem nibbles_toNat (v : Byte) : 16 * (v.extractLsb' 4 4).toNat + (v.extractLsb' 0 4).toNat = v.toNat := by
  simp only [BitVec.extractLsb'_toNat, Nat.shiftRight_eq_div_pow]
  omega

/-- The digits of a byte declare the byte (R105, R109). -/
theorem declared_nibbles (v : Byte) : declared (v.extractLsb' 4 4) (v.extractLsb' 0 4) = v :=
  declared_eq_iff.2 (nibbles_toNat v)

/-! ### Reading a hex field -/

/-- Reading goes on from the value of what is read (R111). -/
theorem hexvalFrom_append (w v : Nat) (s t : List Byte) :
    hexvalFrom w v (s ++ t) = (hexvalFrom w v s).bind fun u => hexvalFrom w u t := by
  induction s generalizing v with
  | nil => rfl
  | cons b s ih => cases hb : nib b <;> simp [hexvalFrom, hb, ih]

theorem hexvalFrom_singleton {w v : Nat} {c : Byte} {n : Nibble} (hc : nib c = some n) :
    hexvalFrom w v [c] = some ((v * 16 + n.toNat) % 2 ^ w) := by
  simp only [hexvalFrom, hc]

/-- One more digit shifts its nibble in (R111). -/
theorem hexval_concat {w v : Nat} {s : List Byte} {c : Byte} {n : Nibble} (hs : hexval w s = some v)
    (hc : nib c = some n) : hexval w (s ++ [c]) = some ((v * 16 + n.toNat) % 2 ^ w) := by
  rw [hexval, hexvalFrom_append, ← hexval, hs, Option.bind_some, hexvalFrom_singleton hc]

theorem hexvalFrom_eq_none_iff {w v : Nat} {s : List Byte} : hexvalFrom w v s = none ↔ ∃ c ∈ s, nib c = none := by
  induction s generalizing v with
  | nil => simp [hexvalFrom]
  | cons b s ih => cases hb : nib b <;> simp [hexvalFrom, hb, ih]

theorem hexval_eq_none_iff {w : Nat} {s : List Byte} : hexval w s = none ↔ ∃ c ∈ s, nib c = none :=
  hexvalFrom_eq_none_iff

/-- A field of hex digits has a value (R111). -/
theorem exists_hexval {s : List Byte} (w : Nat) (hs : ∀ c ∈ s, (nib c).isSome) : ∃ v, hexval w s = some v := by
  rw [← Option.ne_none_iff_exists', Ne, hexval_eq_none_iff]
  rintro ⟨c, hc, hnone⟩
  simpa [hnone] using hs c hc

/-- A value keeps the width of the field (R111). -/
theorem hexvalFrom_lt {w v u : Nat} {s : List Byte} (hv : v < 2 ^ w) (h : hexvalFrom w v s = some u) : u < 2 ^ w := by
  induction s generalizing v with
  | nil => cases h; exact hv
  | cons b s ih =>
    cases hb : nib b with
    | none => simp [hexvalFrom, hb] at h
    | some n =>
      simp only [hexvalFrom, hb] at h
      exact ih (Nat.mod_lt _ (Nat.two_pow_pos w)) h

theorem hexval_lt {w v : Nat} {s : List Byte} (h : hexval w s = some v) : v < 2 ^ w :=
  hexvalFrom_lt (Nat.two_pow_pos w) h

/-- Values that agree once the digits to come have shifted them are not told apart (R111). -/
theorem hexvalFrom_congr {w u v : Nat} {s : List Byte} (h : u * 16 ^ s.length ≡ v * 16 ^ s.length [MOD 2 ^ w]) :
    hexvalFrom w (u % 2 ^ w) s = hexvalFrom w (v % 2 ^ w) s := by
  induction s generalizing u v with
  | nil => exact congrArg some (by simpa [Nat.ModEq] using h)
  | cons b s ih =>
    cases hb : nib b with
    | none => simp [hexvalFrom, hb]
    | some n =>
      have hnext : (u * 16 + n.toNat) * 16 ^ s.length ≡ (v * 16 + n.toNat) * 16 ^ s.length [MOD 2 ^ w] := by
        simpa [Nat.add_mul, Nat.mul_assoc, pow_succ'] using h.add_right (n.toNat * 16 ^ s.length)
      simpa [hexvalFrom, hb, Nat.add_mod, Nat.mul_mod] using ih hnext

/-- `w / 4` digits shift a value by the whole width. -/
theorem sixteen_pow_digits {w : Nat} (hw : w % 4 = 0) : 16 ^ (w / 4) = 2 ^ w := by
  rw [show 16 = 2 ^ 4 by rfl, ← pow_mul, Nat.mul_div_cancel' (Nat.dvd_of_mod_eq_zero hw)]

/-- `w / 4` digits push out whatever was read before them (R111). -/
theorem hexval_append_of_length {w : Nat} {s t : List Byte} (hw : w % 4 = 0) (ht : t.length = w / 4)
    (hs : ∀ c ∈ s, (nib c).isSome) : hexval w (s ++ t) = hexval w t := by
  obtain ⟨u, hu⟩ := exists_hexval w hs
  have hshift : u * 16 ^ t.length ≡ 0 * 16 ^ t.length [MOD 2 ^ w] := by
    simp [ht, sixteen_pow_digits hw, Nat.ModEq]
  calc hexval w (s ++ t) = hexvalFrom w u t := by rw [hexval, hexvalFrom_append, ← hexval, hu, Option.bind_some]
    _ = hexvalFrom w (u % 2 ^ w) t := by rw [Nat.mod_eq_of_lt (hexval_lt hu)]
    _ = hexval w t := by rw [hexvalFrom_congr hshift, Nat.zero_mod, hexval]

/-! ### Writing an offset -/

theorem hexDigits_of_lt {fuel v : Nat} (h : v < 16) : hexDigits (fuel + 1) v = [hexdig (BitVec.ofNat 4 v)] := by
  simp [hexDigits, h]

theorem hexDigits_of_le {fuel v : Nat} (h : 16 ≤ v) :
    hexDigits (fuel + 1) v = hexDigits fuel (v / 16) ++ [hexdig (BitVec.ofNat 4 v)] := by
  simp [hexDigits, Nat.not_lt.2 h]

theorem hexDigits_succ_length_pos (fuel v : Nat) : 1 ≤ (hexDigits (fuel + 1) v).length := by
  simp [hexDigits]

theorem exists_hexdig_of_mem_hexDigits {fuel v : Nat} {d : Byte} (h : d ∈ hexDigits fuel v) :
    ∃ n : Nibble, d = hexdig n := by
  induction fuel generalizing v with
  | zero => cases h
  | succ fuel ih =>
    obtain hv | hv := Nat.lt_or_ge v 16
    · rw [hexDigits_of_lt hv] at h
      exact ⟨_, List.mem_singleton.1 h⟩
    · rw [hexDigits_of_le hv] at h
      obtain h | h := List.mem_append.1 h
      · exact ih h
      · exact ⟨_, List.mem_singleton.1 h⟩

/-- A value other than 0 is written with a first digit other than 0 (R107). -/
theorem exists_leading_hexdig {fuel v : Nat} (hv : v < 16 ^ fuel) (h0 : v ≠ 0) :
    ∃ n ds, n ≠ 0 ∧ hexDigits fuel v = hexdig n :: ds := by
  induction fuel generalizing v with
  | zero => omega
  | succ fuel ih =>
    obtain hlt | hle := Nat.lt_or_ge v 16
    · exact ⟨_, [], fun h => h0 ((ofNat_eq_nibble_iff hlt).1 h).symm, hexDigits_of_lt hlt⟩
    · obtain ⟨n, ds, hn, hds⟩ := ih (v := v / 16) (by omega) (by omega)
      exact ⟨n, _, hn, by rw [hexDigits_of_le hle, hds, List.cons_append]⟩

theorem hexDigits_head_ne_zero {fuel v : Nat} (hv : v < 16 ^ fuel) (h0 : v ≠ 0) :
    (hexDigits fuel v).head? ≠ some 0x30 := by
  obtain ⟨n, ds, hn, hds⟩ := exists_leading_hexdig hv h0
  rwa [hds, List.head?_cons, Ne, Option.some_inj, hexdig_eq_zero_iff]

/-- The last digit of a value reads back after the digits of the rest of it (R107, R111). -/
theorem hexval_concat_hexdig {w v : Nat} {s : List Byte} (hv : v < 2 ^ w) (hs : hexval w s = some (v / 16)) :
    hexval w (s ++ [hexdig (BitVec.ofNat 4 v)]) = some v := by
  rw [hexval_concat hs (nib_hexdig _), BitVec.toNat_ofNat, Nat.div_add_mod' v 16, Nat.mod_eq_of_lt hv]

/-- The digits of a value that fits in them read back as the value (R107, R111). -/
theorem hexval_hexDigits {w fuel v : Nat} (hfits : v < 16 ^ fuel) (hv : v < 2 ^ w) :
    hexval w (hexDigits fuel v) = some v := by
  induction fuel generalizing v with
  | zero => rw [Nat.lt_one_iff.1 hfits]; rfl
  | succ fuel ih =>
    obtain hlt | hle := Nat.lt_or_ge v 16
    · rw [hexDigits_of_lt hlt]
      exact hexval_concat_hexdig (s := []) hv (by rw [Nat.div_eq_of_lt hlt]; rfl)
    · rw [hexDigits_of_le hle]
      exact hexval_concat_hexdig hv (ih (by omega) (by omega))

/-! ### Writing a word -/

/-- A nibble of a byte of a word is a nibble of the word (R106). -/
theorem hex2_extractLsb' (w : RegWord) (k : Nat) :
    hex2 (w.extractLsb' k 8) = [hexdig (w.extractLsb' (k + 4) 4), hexdig (w.extractLsb' k 4)] := by
  have hnibble (i : Nat) (hi : i + 4 ≤ 8) :
      (w.extractLsb' k 8).extractLsb' i 4 = w.extractLsb' (k + i) 4 := by
    ext j hj
    simp [show i + j < 8 by omega, Nat.add_assoc]
  simp [hex2, hnibble]

end Sys2Proof
end

section
/-! SUPPORT. The statements of 40_codec.md. -/

namespace Sys2Proof.Machine

/-- Settles O2, by induction on the bytes (`csum_toNat`). -/
theorem checksumIsTheSumMod256 : Obligations.ChecksumIsTheSumMod256 := csum_toNat

/-- Settles O3: the checksum is a sum in the ring of bytes. -/
theorem checksumLaws : Obligations.ChecksumLaws :=
  ⟨fun s b => by simpa using csum_append_toNat s [b], csum_append_toNat, fun _ _ => csum_perm, csum_add_sub⟩

/-- Settles O4: each digit reads back as its nibble, and the two nibbles of a byte make up the byte. -/
theorem hexDigitsRoundTrip : Obligations.HexDigitsRoundTrip :=
  ⟨nib_hexdig,
    fun v => ⟨_, _, _, _, rfl, nib_hexdig _, nib_hexdig _, nibbles_toNat v⟩,
    fun p => ⟨_, _, _, _, by simp [frame, hex2], nib_hexdig _, nib_hexdig _, declared_nibbles (csum p)⟩⟩

/-- Settles O6, each clause by the recursion of `hexDigits` on the digits that are left. -/
theorem offsetDigitsAreMinimal : Obligations.OffsetDigitsAreMinimal := by
  intro w v hw hmin hv
  have hfits : v < 16 ^ (w / 4) := by rwa [sixteen_pow_digits hw]
  obtain ⟨fuel, hfuel⟩ : ∃ fuel, w / 4 = fuel + 1 := Nat.exists_eq_add_one.2 (by omega)
  refine ⟨?_, hexmin_length_le w v, fun d => exists_hexdig_of_mem_hexDigits, ?_, hexDigits_head_ne_zero hfits,
    hexval_hexDigits hfits hv⟩
  · rw [hexmin, hfuel]
    exact hexDigits_succ_length_pos fuel v
  · rintro rfl
    rw [hexmin, hfuel, hexDigits_of_lt (by decide)]
    rfl

/-- Settles O7: the clauses are the rules of `hexval`, and a field without a value is a draw cut to the width. -/
theorem hexFieldValue : Obligations.HexFieldValue := by
  refine ⟨fun _ => rfl, fun _ _ _ _ _ => hexval_concat, fun _ _ _ => hexval_append_of_length,
    fun _ _ => hexval_eq_none_iff, fun w d s => ?_⟩
  cases hs : hexval w s with
  | none => simp [fieldValue, hs, Nat.mod_lt]
  | some v => simp [fieldValue, hs, hexval_lt hs]

/-- Settles O1: the three ranges (`nib_eq_some_iff`), and a count over the 256 bytes. -/
theorem nibMapsTheHexDigits : Obligations.NibMapsTheHexDigits :=
  ⟨fun _ _ => nib_eq_some_iff, by decide +kernel, by decide +kernel⟩

/-- Settles O5: a nibble of a byte of the word is a nibble of the word. -/
theorem registerWordIsBigEndian : Obligations.RegisterWordIsBigEndian := by
  intro w
  constructor
  · simp only [hex8, hex2_extractLsb']; rfl
  · rfl

end Sys2Proof.Machine
end

section
/-! SUPPORT. What a command answers where its collaborators answer freely (41_framer_fsm.md section 4). -/

namespace Sys2Proof.Machine

/-- From `s` to `u` at most one request has been made; only the draws and the trace of events have changed besides. -/
def AsksAtMostOnce (s u : State) : Prop :=
  ∃ q d es, q.length ≤ 1 ∧ q.all isRequest = true ∧ u = { s with draws := d, ports := s.ports ++ q, events := es }

theorem asksAtMostOnce_refl (s : State) : AsksAtMostOnce s s :=
  ⟨[], s.draws, s.events, by simp, rfl, by simp⟩

theorem AsksAtMostOnce.signal {s u : State} (h : AsksAtMostOnce s u) (e : ErrorEvent) :
    AsksAtMostOnce s (signal e u) := by
  obtain ⟨q, d, es, hlength, hrequests, rfl⟩ := h
  exact ⟨q, d, es ++ [e], hlength, hrequests, rfl⟩

theorem asksAtMostOnce_tookRegs {s : State} (hs : s.regsAnswers = []) (a : RegsAnswer) :
    AsksAtMostOnce s (tookRegs a s) :=
  ⟨[.regs a], s.draws + 1, s.events, by simp, rfl, by simp [tookRegs, hs]⟩

theorem asksAtMostOnce_tookCopy {s : State} (hs : s.copyAnswers = []) (p n : Nat) (a : CopyAnswer) :
    AsksAtMostOnce s (tookCopy p n a s) :=
  ⟨[.copy p n a], s.draws + 1, s.events, by simp, rfl, by simp [tookCopy, hs]⟩

theorem askRegs_of_free {s : State} (hs : s.regsAnswers = []) : ∃ ws a, askRegs s = .ok (ws, tookRegs a s) :=
  ⟨_, _, by simp only [askRegs, hs]; rfl⟩

theorem askCopy_of_free {s : State} (hs : s.copyAnswers = []) (p n : Nat) :
    ∃ x a, askCopy p n s = .ok (x, tookCopy p n a s) :=
  ⟨_, _, by simp only [askCopy, hs]; rfl⟩

/-- `m` sends one reply to any result of its copy (R170, R58). -/
theorem replyMemory_eq_sendReply {s u : State} (h : AsksAtMostOnce s u) (x : Option (List Byte)) :
    ∃ p v, AsksAtMostOnce s v ∧ replyMemory x u = sendReply p v := by
  cases x with
  | none => exact ⟨_, _, h.signal .ev5, rfl⟩
  | some bs => exact ⟨_, _, h, rfl⟩

/-- Every command but `k` ends in the reply path (R131), after at most one request (R62). -/
theorem runCommand_of_free {s : State} {c : Command} (hs : FreeAnswers s) (hc : ∀ r, c ≠ .kill r) :
    ∃ p u, AsksAtMostOnce s u ∧ runCommand c s = .next (sendReply p u) := by
  obtain ⟨hregs, hcopy⟩ := hs
  cases c with
  | kill r => exact absurd rfl (hc r)
  | selectThread | queryOffsets | stopReason => exact ⟨_, _, asksAtMostOnce_refl s, rfl⟩
  | queryOther | unknown => exact ⟨_, _, (asksAtMostOnce_refl s).signal .ev4, rfl⟩
  | readRegisters r =>
    obtain ⟨ws, a, hask⟩ := askRegs_of_free hregs
    exact ⟨registerDump ws, _, asksAtMostOnce_tookRegs hregs a, by simp only [runCommand, execReadRegisters, hask]⟩
  | readMemory addr len =>
    obtain ⟨x, a, hask⟩ := askCopy_of_free hcopy (memAddr s addr) (memLen s len)
    obtain ⟨p, v, hv, hreply⟩ :=
      replyMemory_eq_sendReply (asksAtMostOnce_tookCopy hcopy (memAddr s addr) (memLen s len) a) x
    exact ⟨p, v, hv, (exec_readMemory_of_ask hask).trans (congrArg _ hreply)⟩

end Sys2Proof.Machine
end

section
/-! SUPPORT. The statements of 41_framer_fsm.md on single rows, and `k` (42_dispatcher.md). -/

namespace Sys2Proof.Machine

/-! ### The rows of INIT and CMDREAD -/

/-- Settles O16: the one state element besides the two that `beginCommand` writes is `st`. -/
theorem frameStartOpensAFrame : Obligations.FrameStartOpensAFrame := fun _ => rfl

/-- Settles O17: the row is `signal` alone. -/
theorem initNoiseIsDropped : Obligations.InitNoiseIsDropped := fun _ _ => rfl

/-- A write leaves what stands above its end (R33). -/
theorem overwrite_drop (buf new : List Byte) {i : Nat} (h : i ≤ buf.length) :
    (overwrite buf i new).drop (i + new.length) = buf.drop (i + new.length) :=
  List.drop_left' (by simp [h])

/-- With room in the Command Buffer the row stores its byte (R123, R139). -/
theorem exec_payloadStore_room {s : State} (b : Byte) (h : s.cmdLen < s.cfg.cmdCap) :
    exec (.payloadStore b) s = .next (goto .cmdRead (storeByte b s)) := by
  rw [← appendCommandByte_room b h]; rfl

/-- Settles O18: with room the byte is written at the cursor, behind what is stored. -/
theorem payloadByteIsStored : Obligations.PayloadByteIsStored := by
  intro b s hroom hcursor
  exact ⟨goto .cmdRead (storeByte b s), exec_payloadStore_room b hroom, storedPayload_storeByte b hcursor,
    overwrite_drop s.cmd [b] hcursor, BitVec.toNat_add s.csumAcc b, rfl⟩

/-- Settles O19: without room the byte is only signalled. -/
theorem payloadByteIsDroppedWhenFull : Obligations.PayloadByteIsDroppedWhenFull := by
  intro b s hfull
  change Host.Outcome.next (goto .cmdRead (appendCommandByte b s)) = _
  rw [appendCommandByte_full b hfull.not_gt]
  rfl

/-- Settles O20: the row only enters CKSUM1. -/
theorem frameEndAwaitsTheChecksum : Obligations.FrameEndAwaitsTheChecksum := fun _ => rfl

/-! ### The rows of CKSUM1 and CKSUM2 -/

/-- Settles O21: the row writes the latch and enters CKSUM2. -/
theorem highDigitIsLatched : Obligations.HighDigitIsLatched := fun _ _ => rfl

/-- Settles O22: both rows are `signal` alone. -/
theorem malformedChecksumDigitIsDropped : Obligations.MalformedChecksumDigitIsDropped := fun _ _ => ⟨rfl, rfl⟩

/-- Settles O23: the row emits the NAK and runs no command. -/
theorem badChecksumIsNaked : Obligations.BadChecksumIsNaked := fun _ _ => rfl

/-- Settles O24: the dispatcher's command is the arm of `exec` for its instruction (`runCommand_eq_exec`). -/
theorem goodChecksumRunsTheCommand : Obligations.GoodChecksumRunsTheCommand :=
  fun _ s => runCommand_eq_exec (decodeCommand (storedPayload s)) (emit [chPlus] s)

/-- Settles O38: the row only enters QUIT. -/
theorem killQuits : Obligations.KillQuits := fun _ _ => rfl

/-- Settles O25: `k` quits after the ACK (`killQuits`); every other command ends in the reply path after at most one
request (`runCommand_of_free`). -/
theorem goodChecksumIsAnswered : Obligations.GoodChecksumIsAnswered := by
  intro n s hfree
  by_cases hkill : ∃ r, decodeCommand (storedPayload s) = .kill r
  · refine .inl ⟨hkill, ?_⟩
    obtain ⟨r, hr⟩ := hkill
    rw [goodChecksumRunsTheCommand, hr]
    exact killQuits r _
  · have hne : ∀ r, decodeCommand (storedPayload s) ≠ .kill r := not_exists.1 hkill
    obtain ⟨p, u, ⟨q, d, es, hlength, hrequests, rfl⟩, hrun⟩ :=
      runCommand_of_free (s := emit [chPlus] s) hfree hne
    exact .inr ⟨hne, _, q, p, hrun, rfl, hlength, hrequests, cachedReply_sendReply p _, rfl⟩

/-! ### The rows of WAITACK and QUIT -/

/-- Settles O26: the row only enters INIT. -/
theorem ackReturnsToInit : Obligations.AckReturnsToInit := fun _ => rfl

/-- Settles O27: the row's one test is of `replyValid`. -/
theorem nakResendsTheCachedReply : Obligations.NakResendsTheCachedReply :=
  fun _ => ⟨fun h => if_pos h, fun h => if_neg (ne_true_of_eq_false h)⟩

/-- Settles O28: the row emits the NAK, signals and enters INIT. -/
theorem outOfSyncByteIsNaked : Obligations.OutOfSyncByteIsNaked := fun _ _ => rfl

/-- Settles O29: the row answers the state it is given. -/
theorem quitHaltChangesNothing : Obligations.QuitHaltChangesNothing := fun _ => rfl

end Sys2Proof.Machine
end

section
/-! SUPPORT. Runs with no boundary to come, in which each step takes the byte first at the transport. -/

namespace Sys2Proof.Machine

/-- With no boundary to come, the byte first at the transport is taken and its row runs (`stepRunsTheDecodedRow`). -/
theorem step_of_decodeRx {s : State} {b : Byte} {rest : List Byte} {i : Instr} (hcfg : s.cfg.valid = true)
    (hschedule : s.schedule = []) (hrx : s.rx = b :: rest) (hquit : s.st ≠ 5) (hreply : s.st = 4 → s.replyValid = true)
    (hdec : decodeRx (rxContext s) b = .ok i) : step s = exec i (takeByte b rest s) := by
  have hnow : nowBoundary s = {} := by simp [nowBoundary, hschedule]
  have hpins : NoPins s := by simp [NoPins, hnow]
  have harrived : s.rx ++ (nowBoundary s).arrive = b :: rest := by simp [hnow, hrx]
  rw [stepRunsTheDecodedRow s b rest i hcfg hpins harrived hquit hreply hdec]
  simp [takeByte, hschedule]

theorem run_succ_of_step {s t : State} {k : Nat} (h : step s = .next t) :
    Sys2Proof.core.run (k + 1) s = Sys2Proof.core.run k t := by
  have hstep : Sys2Proof.core.step s = .next t := h
  simp only [Host.Core.run, hstep]

theorem run_one_of_step {s t : State} (h : step s = .next t) : Sys2Proof.core.run 1 s = .next t :=
  run_succ_of_step h

theorem run_add_of_run {s t : State} {m n : Nat} (h : Sys2Proof.core.run m s = .next t) :
    Sys2Proof.core.run (m + n) s = Sys2Proof.core.run n t := by
  induction m generalizing s with
  | zero => cases h; rw [Nat.zero_add]
  | succ m ih =>
    cases hs : step s with
    | next u =>
      rw [Nat.succ_add, run_succ_of_step hs]
      rw [run_succ_of_step hs] at h
      exact ih h
    | fault | refused => simp [Host.Core.run, show Sys2Proof.core.step s = step s from rfl, hs] at h

theorem goto_eq_self {s : State} {ph : Phase} (h : s.st = phaseCode ph) : goto ph s = s := by rw [goto, ← h]

/-- Entering a state and signalling an event are no transfers. -/
@[simp] theorem sent_goto (ph : Phase) (s : State) : sent (goto ph s) = sent s := rfl
@[simp] theorem sent_signal (e : ErrorEvent) (s : State) : sent (signal e s) = sent s := rfl
@[simp] theorem requests_goto (ph : Phase) (s : State) : requests (goto ph s) = requests s := rfl
@[simp] theorem requests_signal (e : ErrorEvent) (s : State) : requests (signal e s) = requests s := rfl

/-! ### The bytes of a frame -/

theorem overwrite_overwrite {buf : List Byte} {i : Nat} (s t : List Byte) (h : i ≤ buf.length) :
    overwrite (overwrite buf i s) (i + s.length) t = overwrite buf i (s ++ t) := by
  rw [overwrite, overwrite_take s h, ← List.drop_drop, overwrite_drop buf s h]
  simp [overwrite, Nat.add_assoc]

/-- `s` in CMDREAD after the payload bytes `p` have been taken and stored, with `rest` left at the transport (R123). -/
def payloadTaken (p rest : List Byte) (s : State) : State :=
  { s with
    st := phaseCode .cmdRead, cmd := overwrite s.cmd s.cmdLen p, cmdLen := s.cmdLen + p.length
    csumAcc := s.csumAcc + csum p, rx := rest, ports := s.ports ++ p.map .rx }

theorem payloadTaken_nil {s : State} (hst : s.st = 1) : payloadTaken [] s.rx s = s :=
  calc payloadTaken [] s.rx s = goto .cmdRead s := by simp [payloadTaken, overwrite, goto]
    _ = s := goto_eq_self hst

/-- Taking one byte and then the others is taking them all. -/
theorem payloadTaken_cons {s : State} (b : Byte) (p rest : List Byte) (hcursor : s.cmdLen ≤ s.cmd.length) :
    payloadTaken p rest (goto .cmdRead (storeByte b (takeByte b (p ++ rest) s))) = payloadTaken (b :: p) rest s := by
  have hcmd : overwrite (overwrite s.cmd s.cmdLen [b]) (s.cmdLen + 1) p = overwrite s.cmd s.cmdLen (b :: p) :=
    overwrite_overwrite [b] p hcursor
  simp [payloadTaken, goto, storeByte, takeByte, hcmd, Nat.add_assoc, Nat.add_comm 1, BitVec.add_assoc]

/-- In CMDREAD a byte other than `'#'` is stored where there is room (R123). -/
theorem step_payloadByte {s : State} {b : Byte} {rest : List Byte} (hcfg : s.cfg.valid = true)
    (hschedule : s.schedule = []) (hst : s.st = 1) (hroom : s.cmdLen < s.cfg.cmdCap) (hb : b ≠ chHash)
    (hrx : s.rx = b :: rest) : step s = .next (goto .cmdRead (storeByte b (takeByte b rest s))) := by
  have hdec : decodeRx (rxContext s) b = .ok (.payloadStore b) :=
    decodeRx_of_reads (by simp [appliesIn, rxContext, hst, hroom, phaseOf]) ⟨hb, rfl⟩
  rw [step_of_decodeRx hcfg hschedule hrx (by simp [hst]) (by simp [hst]) hdec]
  exact exec_payloadStore_room b hroom

/-- A payload without `'#'` that the Command Buffer has room for is stored whole. -/
theorem run_payload {s : State} {p rest : List Byte} (hcfg : s.cfg.valid = true) (hschedule : s.schedule = [])
    (hst : s.st = 1) (hcursor : s.cmdLen ≤ s.cmd.length) (hroom : s.cmdLen + p.length ≤ s.cfg.cmdCap)
    (hp : chHash ∉ p) (hrx : s.rx = p ++ rest) :
    Sys2Proof.core.run p.length s = .next (payloadTaken p rest s) := by
  induction p generalizing s with
  | nil => rw [← show s.rx = rest from hrx, payloadTaken_nil hst]; rfl
  | cons b p ih =>
    obtain ⟨hb, hp⟩ := List.ne_and_not_mem_of_not_mem_cons hp
    rw [List.length_cons] at hroom
    have hstep := step_payloadByte hcfg hschedule hst (by omega) hb.symm hrx
    have hcursor' := overwrite_length [b] hcursor
    rw [List.length_cons, run_succ_of_step hstep, ← payloadTaken_cons b p rest hcursor]
    exact ih hcfg hschedule rfl (by simp [hcursor']) (by simp; omega) hp rfl

/-- In INIT `'$'` opens a frame (R121). -/
theorem step_dollar {s : State} {rest : List Byte} (hcfg : s.cfg.valid = true) (hschedule : s.schedule = [])
    (hst : s.st = 0) (hrx : s.rx = chDollar :: rest) :
    step s = .next (goto .cmdRead (beginCommand (takeByte chDollar rest s))) :=
  step_of_decodeRx (i := .frameStart) hcfg hschedule hrx (by simp [hst]) (by simp [hst])
    (decodeRx_of_reads (by simp [appliesIn, rxContext, hst, phaseOf]) rfl)

/-- In CMDREAD `'#'` ends the payload (R125). -/
theorem step_hash {s : State} {rest : List Byte} (hcfg : s.cfg.valid = true) (hschedule : s.schedule = [])
    (hst : s.st = 1) (hrx : s.rx = chHash :: rest) : step s = .next (goto .cksum1 (takeByte chHash rest s)) :=
  step_of_decodeRx (i := .frameEnd) hcfg hschedule hrx (by simp [hst]) (by simp [hst])
    (decodeRx_of_reads (by simp [appliesIn, rxContext, hst, phaseOf]) rfl)

/-- In CKSUM1 a hex digit is latched (R126). -/
theorem step_highDigit {s : State} {c : Byte} {h : Nibble} {rest : List Byte} (hcfg : s.cfg.valid = true)
    (hschedule : s.schedule = []) (hst : s.st = 2) (hc : nib c = some h) (hrx : s.rx = c :: rest) :
    step s = .next (goto .cksum2 (latchHi h (takeByte c rest s))) :=
  step_of_decodeRx (i := .cksumHi h) hcfg hschedule hrx (by simp [hst]) (by simp [hst])
    (decodeRx_of_reads (by simp [appliesIn, rxContext, hst, phaseOf]) hc)

/-- `s` in CKSUM2 after `'$'`, the payload `p`, `'#'` and the digit `c` of value `h` have been taken, with `rest` left
at the transport (R121 to R126). -/
def lowDigitAwaited (p : List Byte) (c : Byte) (h : Nibble) (rest : List Byte) (s : State) : State :=
  { s with
    st := phaseCode .cksum2, cmd := overwrite s.cmd 0 p, cmdLen := p.length, csumAcc := csum p, hi := h, rx := rest
    ports := s.ports ++ (chDollar :: p ++ [chHash, c]).map .rx }

section
variable (p : List Byte) (c : Byte) (h : Nibble) (rest : List Byte) (s : State)

@[simp] theorem storedPayload_lowDigitAwaited : storedPayload (lowDigitAwaited p c h rest s) = p := by
  simp [storedPayload, lowDigitAwaited]

@[simp] theorem sent_lowDigitAwaited : sent (lowDigitAwaited p c h rest s) = sent s := by
  simp [sent, lowDigitAwaited, List.filterMap_cons, Function.comp_def]

@[simp] theorem requests_lowDigitAwaited : requests (lowDigitAwaited p c h rest s) = requests s := by
  simp [requests, lowDigitAwaited]

@[simp] theorem cachedReply_lowDigitAwaited : cachedReply (lowDigitAwaited p c h rest s) = cachedReply s := rfl

/-- In CKSUM2 the low digit completes the declared checksum (R128). -/
theorem decodeRx_lowDigitAwaited {d : Byte} {l : Nibble} (hd : nib d = some l) :
    decodeRx (rxContext (lowDigitAwaited p c h rest s)) d =
      .ok (if declared h l = csum p then .cksumLoGood l else .cksumLoBad l) := by
  simp [decodeRx, rxContext, lowDigitAwaited, phaseOf_phaseCode, hd]

end

/-- From INIT, a frame whose payload fits is taken up to the high digit of its checksum, and nothing is answered. -/
theorem run_to_lowDigit {s : State} {p rest : List Byte} {c : Byte} {h : Nibble} (hcfg : s.cfg.valid = true)
    (hschedule : s.schedule = []) (hst : s.st = 0) (hp : chHash ∉ p) (hfits : p.length ≤ s.cfg.cmdCap)
    (hc : nib c = some h) (hrx : s.rx = chDollar :: (p ++ chHash :: c :: rest)) :
    Sys2Proof.core.run (p.length + 3) s = .next (lowDigitAwaited p c h rest s) := by
  calc Sys2Proof.core.run (p.length + 3) s
    _ = Sys2Proof.core.run (p.length + 2) _ := run_succ_of_step (step_dollar hcfg hschedule hst hrx)
    _ = Sys2Proof.core.run 2 _ :=
      run_add_of_run (run_payload hcfg hschedule rfl (Nat.zero_le _) (by simpa using hfits) hp rfl)
    _ = Sys2Proof.core.run 1 _ := run_succ_of_step (step_hash hcfg hschedule rfl rfl)
    _ = .next _ := run_one_of_step (step_highDigit hcfg hschedule rfl hc rfl)
    _ = .next (lowDigitAwaited p c h rest s) := by
      simp [lowDigitAwaited, payloadTaken, goto, beginCommand, takeByte, latchHi]

/-- The step that takes the low digit runs its row. -/
theorem step_lowDigitAwaited {s : State} {p more : List Byte} {c d : Byte} {h : Nibble} {i : Instr}
    (hcfg : s.cfg.valid = true) (hschedule : s.schedule = [])
    (hdec : decodeRx (rxContext (lowDigitAwaited p c h (d :: more) s)) d = .ok i) :
    step (lowDigitAwaited p c h (d :: more) s) = exec i (takeByte d more (lowDigitAwaited p c h (d :: more) s)) :=
  step_of_decodeRx hcfg hschedule rfl nofun nofun hdec

/-! ### Retransmission -/

/-- `s` after the cached reply has been resent to each of `k` `'-'`, with `rest` left at the transport (R135). -/
def resent (k : Nat) (rest : List Byte) (s : State) : State :=
  { s with
    st := phaseCode .waitAck, rx := rest
    ports := s.ports ++ (List.replicate k (.rx chMinus :: (cachedReply s).map .tx)).flatten }

section
variable (k : Nat) (rest : List Byte) (s : State)

@[simp] theorem sent_resent : sent (resent k rest s) = sent s ++ (List.replicate k (cachedReply s)).flatten := by
  simp [sent, resent, List.filterMap_flatten, List.filterMap_cons]

@[simp] theorem requests_resent : requests (resent k rest s) = requests s := by
  simp [requests, resent, List.filter_flatten]

@[simp] theorem cachedReply_resent : cachedReply (resent k rest s) = cachedReply s := rfl

end

theorem resent_zero {s : State} (hst : s.st = 4) : resent 0 s.rx s = s :=
  calc resent 0 s.rx s = goto .waitAck s := by simp [resent, goto]
    _ = s := goto_eq_self hst

/-- Resending once and then to each of the others is resending to them all. -/
theorem resent_succ (k : Nat) (mid rest : List Byte) (s : State) :
    resent k rest (resent 1 mid s) = resent (k + 1) rest s := by
  simp [resent, cachedReply, List.replicate_succ]

/-- In WAITACK `'-'` sends the cached reply again (R135). -/
theorem step_minus {s : State} {rest : List Byte} (hcfg : s.cfg.valid = true) (hschedule : s.schedule = [])
    (hst : s.st = 4) (hreply : s.replyValid = true) (hrx : s.rx = chMinus :: rest) :
    step s = .next (resent 1 rest s) := by
  have hdec : decodeRx (rxContext s) chMinus = .ok .nakRx :=
    decodeRx_of_reads (by simp [appliesIn, rxContext, hst, phaseOf]) rfl
  have hresend := (nakResendsTheCachedReply (takeByte chMinus rest s)).1 hreply
  rw [step_of_decodeRx hcfg hschedule hrx (by simp [hst]) (fun _ => hreply) hdec, hresend]
  simp [resent, cachedReply, takeByte, phaseCode]

theorem run_minus {s : State} {k : Nat} {rest : List Byte} (hcfg : s.cfg.valid = true) (hschedule : s.schedule = [])
    (hst : s.st = 4) (hreply : s.replyValid = true) (hrx : s.rx = List.replicate k chMinus ++ rest) :
    Sys2Proof.core.run k s = .next (resent k rest s) := by
  induction k generalizing s with
  | zero => rw [← show s.rx = rest from hrx, resent_zero hst]; rfl
  | succ k ih =>
    rw [run_succ_of_step (step_minus hcfg hschedule hst hreply hrx), ← resent_succ k _ rest s]
    exact ih hcfg hschedule rfl hreply rfl

/-- In WAITACK `'+'` returns to INIT and sends nothing (R134). -/
theorem step_plus {s : State} {rest : List Byte} (hcfg : s.cfg.valid = true) (hschedule : s.schedule = [])
    (hst : s.st = 4) (hreply : s.replyValid = true) (hrx : s.rx = chPlus :: rest) :
    step s = .next (goto .init (takeByte chPlus rest s)) :=
  step_of_decodeRx (i := .ackRx) hcfg hschedule hrx (by simp [hst]) (fun _ => hreply)
    (decodeRx_of_reads (by simp [appliesIn, rxContext, hst, phaseOf]) rfl)

end Sys2Proof.Machine
end

section
/-! SUPPORT. The statements of 41_framer_fsm.md on whole frames. -/

namespace Sys2Proof.Machine

/-- Settles O58: before its last byte the frame is stored and unanswered (`run_to_lowDigit`), and the last digit
completes the payload's checksum (`declared_nibbles`). -/
theorem checksumRoundTripReachesDispatch : Obligations.ChecksumRoundTripReachesDispatch := by
  intro s p more hcfg hst hschedule hp hfits hrx
  have hdec := decodeRx_lowDigitAwaited p (hexdig ((csum p).extractLsb' 4 4)) ((csum p).extractLsb' 4 4)
    (hexdig ((csum p).extractLsb' 0 4) :: more) s (nib_hexdig ((csum p).extractLsb' 0 4))
  rw [if_pos (declared_nibbles (csum p))] at hdec
  exact ⟨_, _, _, run_to_lowDigit hcfg hschedule hst hp hfits (nib_hexdig _) hrx, rfl,
    storedPayload_lowDigitAwaited _ _ _ _ s, sent_lowDigitAwaited _ _ _ _ s, hdec,
    step_lowDigitAwaited hcfg hschedule hdec⟩

/-- Settles O59: the frame is unanswered up to its last byte (`run_to_lowDigit`), and a last digit that completes
another value is NAKed. -/
theorem checksumRejectionIsNaked : Obligations.ChecksumRejectionIsNaked := by
  intro s p more c d h l hcfg hst hschedule hp hfits hc hd hne hrx
  have hrun := run_to_lowDigit hcfg hschedule hst hp hfits hc hrx
  have hdec := decodeRx_lowDigitAwaited p c h (d :: more) s hd
  rw [if_neg (mt declared_eq_iff.1 hne)] at hdec
  have hstep : step (lowDigitAwaited p c h (d :: more) s) =
      .next (goto .init (signal .ev3 (emit [chMinus] (takeByte d more (lowDigitAwaited p c h (d :: more) s))))) :=
    step_lowDigitAwaited hcfg hschedule hdec
  exact ⟨_, (run_add_of_run hrun).trans (run_one_of_step hstep), rfl, rfl, by simp, by simp, rfl⟩

/-- Settles O60: each `'-'` sends the cached reply and leaves the rest as it was (`run_minus`), so `'+'` finds the
framer in WAITACK. -/
theorem retransmissionIsIdempotent : Obligations.RetransmissionIsIdempotent := by
  intro s k more hcfg hst hreply hschedule hrx
  have hrun := run_minus hcfg hschedule hst hreply hrx
  have hstep : step (resent k (chPlus :: more) s) = _ := step_plus hcfg hschedule rfl hreply rfl
  exact ⟨_, _, hrun, rfl, sent_resent _ _ s, rfl, requests_resent _ _ s,
    (run_add_of_run hrun).trans (run_one_of_step hstep), rfl, rfl, sent_takeByte _ more _⟩

end Sys2Proof.Machine
end

section
/-! SUPPORT. The one equivalence behind the statements on command texts: the dispatcher selects a command exactly where
the text is the command's encoding and its operands are as the selection splits them (R77, R78, R161). -/

namespace Sys2Proof

/-! ### Cutting a text at a byte -/

theorem forall_bne_iff_not_mem {x : Byte} {a : List Byte} : (∀ y ∈ a, (y != x) = true) ↔ x ∉ a := by
  simp only [bne_iff_ne, ne_eq, List.forall_mem_ne']

theorem isText_iff {s : List Byte} : isText s = true ↔ chNul ∉ s :=
  List.all_eq_true.trans forall_bne_iff_not_mem

/-- The bytes before the first `x` are all that is taken. -/
theorem takeWhile_bne_append_cons {x : Byte} {a : List Byte} (h : x ∉ a) (r : List Byte) :
    (a ++ x :: r).takeWhile (· != x) = a := by
  rw [List.takeWhile_append_of_pos (forall_bne_iff_not_mem.2 h)]
  simp

/-- What follows the bytes before the first `x` stays. -/
theorem dropWhile_bne_append_cons {x : Byte} {a : List Byte} (h : x ∉ a) (r : List Byte) :
    (a ++ x :: r).dropWhile (· != x) = x :: r := by
  rw [List.dropWhile_append_of_pos (forall_bne_iff_not_mem.2 h)]
  simp

/-- A command text is read back whole before a 0x00, whatever comes after it (R160). -/
theorem textOf_append_nul {a : List Byte} (h : isText a = true) (r : List Byte) : textOf (a ++ chNul :: r) = a :=
  takeWhile_bne_append_cons (isText_iff.1 h) r

/-- Operands without a comma are the address field alone (R78). -/
theorem splitComma_of_not_mem {a : List Byte} (h : chComma ∉ a) : splitComma a = (a, none) := by
  have htake := List.takeWhile_eq_self_iff.2 (forall_bne_iff_not_mem.2 h)
  have hdrop := List.dropWhile_eq_nil_iff.2 (forall_bne_iff_not_mem.2 h)
  simp only [splitComma, htake, hdrop]

/-- The first comma ends the address field (R78). -/
theorem splitComma_append {a : List Byte} (h : chComma ∉ a) (l : List Byte) :
    splitComma (a ++ chComma :: l) = (a, some l) := by
  simp only [splitComma, takeWhile_bne_append_cons h, dropWhile_bne_append_cons h]

/-- The fields of `m` make up the operands again, and the address field holds no comma. -/
theorem splitComma_sound (s : List Byte) :
    chComma ∉ (splitComma s).1 ∧ encode (.readMemory (splitComma s).1 (splitComma s).2) = selM :: s := by
  by_cases h : chComma ∈ s
  · obtain ⟨a, l, rfl, ha⟩ := List.eq_append_cons_of_mem h
    rw [splitComma_append ha]
    exact ⟨ha, rfl⟩
  · rw [splitComma_of_not_mem h]
    exact ⟨h, rfl⟩

/-! ### Selecting a command -/

/-- The operands are as the selection leaves them (R77, R78): another `q` is not `qOffsets`, the address field of `m`
ends at the first comma, and an unknown text does not begin with a selector. -/
def Command.Canonical : Command → Prop
  | .queryOther r => r ≠ txtOffsets
  | .readMemory a _ => chComma ∉ a
  | .unknown t => ∀ c, t.head? = some c → isSelector c = false
  | .selectThread _ | .queryOffsets | .stopReason _ | .readRegisters _ | .kill _ => True

theorem isSelector_eq_false_iff {c : Byte} :
    isSelector c = false ↔ c ≠ selH ∧ c ≠ selQ ∧ c ≠ selStop ∧ c ≠ selG ∧ c ≠ selM ∧ c ≠ selK := by
  simp [isSelector, and_assoc]

/-- What is selected has canonical operands and is encoded as the text. -/
theorem selectCommand_sound (t : List Byte) :
    (selectCommand t).Canonical ∧ encode (commandInstr (selectCommand t)) = t := by
  cases t with
  | nil => exact ⟨fun _ h => (by cases h), rfl⟩
  | cons c rest =>
    rw [selectCommand]
    split_ifs with hH hQ hOffsets hStop hG hM hK
    · exact ⟨trivial, by rw [hH]; rfl⟩
    · exact ⟨trivial, by rw [hQ, hOffsets]; rfl⟩
    · exact ⟨hOffsets, by rw [hQ]; rfl⟩
    · exact ⟨trivial, by rw [hStop]; rfl⟩
    · exact ⟨trivial, by rw [hG]; rfl⟩
    · rw [hM]; exact splitComma_sound rest
    · exact ⟨trivial, by rw [hK]; rfl⟩
    · refine ⟨fun b hb => ?_, rfl⟩
      cases hb
      exact isSelector_eq_false_iff.2 ⟨hH, hQ, hStop, hG, hM, hK⟩

/-- A text that begins with no selector selects Unknown (R174). -/
theorem selectCommand_of_not_selector {c : Byte} (h : isSelector c = false) (rest : List Byte) :
    selectCommand (c :: rest) = .unknown (c :: rest) := by
  obtain ⟨hH, hQ, hStop, hG, hM, hK⟩ := isSelector_eq_false_iff.1 h
  simp only [selectCommand, hH, hQ, hStop, hG, hM, hK, if_false]

/-- The encoding of a command with canonical operands selects it. -/
theorem selectCommand_encode {c : Command} (h : c.Canonical) : selectCommand (encode (commandInstr c)) = c := by
  cases c with
  | selectThread r | stopReason r | readRegisters r | kill r | queryOffsets => rfl
  | queryOther r => exact if_neg h
  | readMemory a l =>
    cases l with
    | none => exact congrArg (fun f => Command.readMemory f.1 f.2) (splitComma_of_not_mem h)
    | some l => exact congrArg (fun f => Command.readMemory f.1 f.2) (splitComma_append h l)
  | unknown t =>
    cases t with
    | nil => rfl
    | cons b r => exact selectCommand_of_not_selector (h b rfl) r

/-- R161 at once: a payload selects a command exactly where the operands are canonical and the text is the command's
encoding. -/
theorem decodeCommand_eq_iff {s : List Byte} {c : Command} :
    decodeCommand s = c ↔ c.Canonical ∧ textOf s = encode (commandInstr c) := by
  constructor
  · rintro rfl
    obtain ⟨hcanonical, hencode⟩ := selectCommand_sound (textOf s)
    exact ⟨hcanonical, hencode.symm⟩
  · rintro ⟨hcanonical, htext⟩
    rw [decodeCommand, htext, selectCommand_encode hcanonical]

theorem decodeCommand_eq_iff_of_canonical {s : List Byte} {c : Command} (h : c.Canonical) :
    decodeCommand s = c ↔ textOf s = encode (commandInstr c) :=
  decodeCommand_eq_iff.trans (and_iff_right h)

/-- A command is well formed exactly where its operands are canonical and its encoding is a command text. -/
theorem wf_commandInstr_iff (c : Command) :
    (commandInstr c).wf = true ↔ c.Canonical ∧ isText (encode (commandInstr c)) = true := by
  cases c with
  | selectThread r | stopReason r | readRegisters r | kill r | queryOffsets =>
    simp [commandInstr, Instr.wf, Command.Canonical, encode, isText, txtOffsets]
  | queryOther r => simp [commandInstr, Instr.wf, Command.Canonical, encode, isText, and_comm]
  | readMemory a l =>
    cases l <;>
      simp [commandInstr, Instr.wf, Command.Canonical, encode, isText, List.forall_mem_ne', and_assoc,
        and_left_comm, and_comm]
  | unknown t =>
    cases t <;> simp [commandInstr, Instr.wf, Command.Canonical, encode, isText, and_comm]

theorem exists_commandInstr {i : Instr} (h : i.isCommand = true) : ∃ c, commandInstr c = i := by
  cases i
  case selectThread r => exact ⟨.selectThread r, rfl⟩
  case queryOffsets => exact ⟨.queryOffsets, rfl⟩
  case queryOther r => exact ⟨.queryOther r, rfl⟩
  case stopReason r => exact ⟨.stopReason r, rfl⟩
  case readRegisters r => exact ⟨.readRegisters r, rfl⟩
  case readMemory a l => exact ⟨.readMemory a l, rfl⟩
  case kill r => exact ⟨.kill r, rfl⟩
  case unknown t => exact ⟨.unknown t, rfl⟩
  all_goals cases h

/-- The fields of `m` in its text, with and without a comma (R78). -/
theorem eq_encode_readMemory_iff {t a : List Byte} {l : Option (List Byte)} :
    t = encode (.readMemory a l) ↔
      (l = none ∧ t = selM :: a) ∨ ∃ k, l = some k ∧ t = selM :: (a ++ chComma :: k) := by
  cases l <;> simp [encode]

end Sys2Proof
end

section
/-! SUPPORT. The statements of 42_dispatcher.md on command texts. -/

namespace Sys2Proof.Machine

/-- Settles O13: the encoding of a well-formed command is a command text that selects it (`wf_commandInstr_iff`,
`decodeCommand_eq_iff`), and a 0x00 ends that text. -/
theorem commandDecodeOfEncode : Obligations.CommandDecodeOfEncode := by
  intro i hw hc
  obtain ⟨c, rfl⟩ := exists_commandInstr hc
  obtain ⟨hcanonical, htext⟩ := (wf_commandInstr_iff c).1 hw
  have hselect {s : List Byte} (hs : textOf s = encode (commandInstr c)) :
      commandInstr (decodeCommand s) = commandInstr c :=
    congrArg commandInstr (decodeCommand_eq_iff.2 ⟨hcanonical, hs⟩)
  exact ⟨hselect (textOf_of_isText htext), fun r => hselect (textOf_append_nul htext r)⟩

/-- Settles O11: each clause is `decodeCommand_eq_iff` at its command. -/
theorem commandSelection : Obligations.CommandSelection := by
  intro s r l
  have hother : decodeCommand s = .queryOther r ↔ r ≠ txtOffsets ∧ textOf s = selQ :: r := decodeCommand_eq_iff
  have hunknown : decodeCommand s = .unknown r ↔ (∀ c, r.head? = some c → isSelector c = false) ∧ textOf s = r :=
    decodeCommand_eq_iff
  simp only [isSelector_eq_false_iff] at hunknown
  exact ⟨decodeCommand_eq_iff_of_canonical trivial, decodeCommand_eq_iff_of_canonical trivial, hother.trans and_comm,
    decodeCommand_eq_iff_of_canonical trivial, decodeCommand_eq_iff_of_canonical trivial,
    decodeCommand_eq_iff.trans (and_congr_right' eq_encode_readMemory_iff), decodeCommand_eq_iff_of_canonical trivial,
    hunknown.trans and_comm⟩

/-- Settles O10: `textOf` takes the bytes before the first 0x00. -/
theorem commandTextEndsAtNul : Obligations.CommandTextEndsAtNul :=
  ⟨fun _ h => textOf_of_isText (isText_iff.2 h), fun _ r h => textOf_append_nul (isText_iff.2 h) r⟩

end Sys2Proof.Machine
end

section
/-! SUPPORT. The statements of 42_dispatcher.md on the replies and the requests of the commands. -/

namespace Sys2Proof.Machine

/-! ### The replies without a request -/

/-- `$OK#9a` (R162). -/
theorem frame_txtOK : frame txtOK = [0x24, 0x4F, 0x4B, 0x23, 0x39, 0x61] := by decide
/-- `$S09#bc` (R166, 90_conflicts.md C1). -/
theorem frame_txtS09 : frame txtS09 = [0x24, 0x53, 0x30, 0x39, 0x23, 0x62, 0x63] := by decide
/-- `$ENS#e6` (R164). -/
theorem frame_txtENS : frame txtENS = [0x24, 0x45, 0x4E, 0x53, 0x23, 0x65, 0x36] := by decide
/-- `$E01#a6` (R174). -/
theorem frame_txtE01 : frame txtE01 = [0x24, 0x45, 0x30, 0x31, 0x23, 0x61, 0x36] := by decide

/-- The reply path answers with the bytes of the payload's frame (R131). -/
theorem next_sendReply {p wire : List Byte} (h : frame p = wire) (s : State) :
    (.next (sendReply p s) : Host.Outcome State Fault Refusal) = .next (repliedWith wire s) := by
  rw [sendReply_eq_repliedWith, h]

/-- Settles O30: both commands are the reply path on a literal text. -/
theorem fixedRepliesOfHAndStopReason : Obligations.FixedRepliesOfHAndStopReason :=
  fun _ s => ⟨next_sendReply frame_txtOK s, next_sendReply frame_txtS09 s⟩

/-- Settles O31: both commands signal EV4 and are the reply path on a literal text. -/
theorem unsupportedCommandsReplyENSOrE01 : Obligations.UnsupportedCommandsReplyENSOrE01 :=
  fun _ s => ⟨next_sendReply frame_txtENS (signal .ev4 s), next_sendReply frame_txtE01 (signal .ev4 s)⟩

/-- Settles O32: the reply path on the offsets' text, whose literal parts are written out. -/
theorem offsetsQueryRepliesTheOffsets : Obligations.OffsetsQueryRepliesTheOffsets :=
  fun s => next_sendReply rfl s

/-! ### The replies to a request -/

/-- A listed answer within its contract is the result of the request (R38). -/
theorem askRegs_of_answer {s : State} {a : RegsAnswer} {more : List RegsAnswer} {ws : List RegWord}
    (hs : s.regsAnswers = a :: more) (hw : regsReply s.cfg.nregs a = some ws) :
    askRegs s = .ok (ws, tookRegs a s) := by
  simp only [askRegs, hs, hw]

/-- `g` replies to the result of its request (R168). -/
theorem exec_readRegisters_of_ask {r : List Byte} {s t : State} {ws : List RegWord} (h : askRegs s = .ok (ws, t)) :
    exec (.readRegisters r) s = .next (sendReply (registerDump ws) t) := by
  simp only [exec, execReadRegisters, h]

/-- Settles O33: NREGS words are within the contract, and `g` replies to them with their dump. -/
theorem readRegistersRepliesTheSnapshot : Obligations.ReadRegistersRepliesTheSnapshot := by
  intro r s cpu ws more hanswer hcount
  have hask : askRegs s = .ok (ws, tookRegs (.words cpu ws) s) := askRegs_of_answer hanswer (if_pos hcount)
  refine ⟨?_, by rw [flatMap_hex8_length, hcount]⟩
  rw [exec_readRegisters_of_ask hask, next_sendReply rfl]
  simp only [registerDump, tookRegs, hanswer, List.tail_cons]

/-- Settles O34: as many bytes as the clamped length are within the contract, and `m` replies to them with their
dump. -/
theorem readMemoryRepliesTheBytes : Obligations.ReadMemoryRepliesTheBytes := by
  rintro a l s _ _ bs more rfl rfl hanswer hcount
  have hask : askCopy (memAddr s a) (memLen s l) s =
      .ok (some bs, tookCopy (memAddr s a) (memLen s l) (.ok bs) s) := askCopy_of_answer hanswer (if_pos hcount)
  rw [exec_readMemory_of_ask hask, replyMemory, next_sendReply rfl]
  simp only [memoryDump, tookCopy, hanswer, List.tail_cons]
  rfl

/-! ### Requests -/

@[simp] theorem requests_appendCommandByte (b : Byte) (s : State) :
    requests (appendCommandByte b s) = requests s := by
  unfold appendCommandByte
  split <;> rfl

@[simp] theorem requests_tookRegs (a : RegsAnswer) (s : State) : requests (tookRegs a s) = requests s ++ [.regs a] := by
  simp [requests]

@[simp] theorem requests_tookCopy (p n : Nat) (a : CopyAnswer) (s : State) :
    requests (tookCopy p n a s) = requests s ++ [.copy p n a] := by
  simp [requests]

/-- The reply to a copy makes no further request (R170). -/
@[simp] theorem requests_replyMemory (x : Option (List Byte)) (s : State) :
    requests (replyMemory x s) = requests s := by
  cases x <;> simp [replyMemory]

/-- A row without a request of its own leaves the requests as they were. -/
theorem requests_exec {i : Instr} {s t : State} (h : exec i s = .next t) (hg : ∀ r, i ≠ .readRegisters r)
    (hm : ∀ a l, i ≠ .readMemory a l) (hc : ∀ n, i ≠ .cksumLoGood n) : requests t = requests s := by
  cases i
  case readRegisters r => exact absurd rfl (hg r)
  case readMemory a l => exact absurd rfl (hm a l)
  case cksumLoGood n => exact absurd rfl (hc n)
  case nakRx =>
    simp only [exec, execNakRx] at h
    split at h
    · cases h; exact requests_emit _ s
    · cases h
  case payloadStore b | payloadDrop b => cases h; exact requests_appendCommandByte b s
  case cksumLoBad | waitackOther => cases h; exact requests_emit _ s
  case selectThread | queryOffsets | stopReason => cases h; exact requests_sendReply _ s
  case queryOther | unknown => cases h; exact requests_sendReply _ (signal .ev4 s)
  all_goals cases h; rfl

/-- Settles O39: `execReadRegisters_next` and `execReadMemory_next` name the one request of `g` and of `m`. -/
theorem onlyRegistersAndMemoryAsk : Obligations.OnlyRegistersAndMemoryAsk := by
  refine ⟨fun _ _ _ => requests_exec, fun r s t h => ?_, fun a l s t h => ?_⟩
  · obtain ⟨cpu, ws, -, rfl⟩ := execReadRegisters_next (r := r) h
    exact ⟨.words cpu ws, by simp⟩
  · obtain ⟨x, -, rfl⟩ := execReadMemory_next (a := a) (l := l) h
    exact ⟨copyAnswerOf x, by simp⟩

end Sys2Proof.Machine
end

section
/-! SUPPORT. The statement of 43_reply_formatter.md: what every command but `k` emits and caches. -/

namespace Sys2Proof.Machine

/-- A request is no output (R62). -/
@[simp] theorem sent_tookRegs (a : RegsAnswer) (s : State) : sent (tookRegs a s) = sent s := by simp [sent]
@[simp] theorem sent_tookCopy (p n : Nat) (a : CopyAnswer) (s : State) : sent (tookCopy p n a s) = sent s := by
  simp [sent]

/-- `t` is the end of the reply path (R131) on a payload that R205 and R206 admit, and the path's frame is all that has
been emitted since `s`. -/
def RepliesFrom (s t : State) : Prop :=
  ∃ p u, ReplyPayload s.cfg p ∧ sent u = sent s ∧ t = sendReply p u

/-- `m` replies with what the copy gave, or with a literal text (R170, R58). -/
theorem repliesFrom_replyMemory {x : Option (List Byte)} {s u : State}
    (hx : ∀ bs, x = some bs → bs.length ≤ s.cfg.memCap) (hu : sent u = sent s) :
    RepliesFrom s (replyMemory x u) := by
  cases x with
  | none => exact ⟨txtE02, signal .ev5 u, replyPayload_of_text (by decide) (by decide), hu, rfl⟩
  | some bs => exact ⟨memoryDump bs, u, replyPayload_memoryDump (hx bs rfl), hu, rfl⟩

/-- Every command but `k` that answers ends in the reply path, with no output before it (R131). -/
theorem runCommand_repliesFrom {c : Command} {s t : State} (hc : ∀ r, c ≠ .kill r) (h : runCommand c s = .next t) :
    RepliesFrom s t := by
  cases c <;> simp only [runCommand] at h
  case selectThread | stopReason => cases h; exact ⟨_, s, replyPayload_of_text (by decide) (by decide), rfl, rfl⟩
  case queryOffsets => cases h; exact ⟨_, s, replyPayload_offsetsText s.cfg, rfl, rfl⟩
  case queryOther | unknown =>
    cases h; exact ⟨_, signal .ev4 s, replyPayload_of_text (by decide) (by decide), rfl, rfl⟩
  case readRegisters r =>
    obtain ⟨cpu, ws, hcount, rfl⟩ := execReadRegisters_next h
    exact ⟨_, _, replyPayload_registerDump hcount, sent_tookRegs _ s, rfl⟩
  case readMemory a l =>
    obtain ⟨x, hcount, rfl⟩ := execReadMemory_next h
    exact repliesFrom_replyMemory (fun bs hbs => (hcount bs hbs).trans_le (Nat.min_le_right _ _))
      (sent_tookCopy _ _ _ s)
  case kill r => exact absurd rfl (hc r)

/-- Settles O40: the command ends in the reply path on a payload within R205 and R206 (`runCommand_repliesFrom`), whose
frame the Reply Buffer has room for. -/
theorem repliesArePrintableAndFit : Obligations.RepliesArePrintableAndFit := by
  intro i s t hcfg hcommand hkill h
  obtain ⟨c, rfl⟩ := exists_commandInstr hcommand
  have hne : ∀ r, c ≠ .kill r := by rintro r rfl; exact hkill r rfl
  obtain ⟨p, u, hp, hsent, rfl⟩ := runCommand_repliesFrom hne ((runCommand_eq_exec c s).trans h)
  refine ⟨p, cachedReply_sendReply p u, by rw [sent_sendReply, hsent], hp.printable, hp.frame_fits hcfg, ?_⟩
  rw [frame_length, Nat.add_comm]
  exact Nat.add_le_add_left hp.length_le 4

end Sys2Proof.Machine
end

section
/-! SUPPORT. The statements of 60_exceptions.md on the collaborators: what `g` and `m` answer to a free value, and that
a broken contract leaves the framer in the step. -/

namespace Sys2Proof.Machine

/-! ### Free answers -/

/-- A free answer to `g` is a snapshot of NREGS words, and `g` replies to it (R241). -/
theorem exec_readRegisters_of_free (r : List Byte) {s : State} (hs : s.regsAnswers = []) :
    ∃ cpu ws, ws.length = s.cfg.nregs ∧
      exec (.readRegisters r) s = .next (sendReply (registerDump ws) (tookRegs (.words cpu ws) s)) := by
  obtain ⟨ws, a, hask⟩ := askRegs_of_free hs
  obtain ⟨hcount, cpu, htook⟩ := askRegs_ok hask
  exact ⟨cpu, ws, hcount, by rw [exec_readRegisters_of_ask hask, htook]⟩

/-- A free answer to `m` is `Fault` or as many bytes as it asked for, and `m` replies to it (R241). -/
theorem exec_readMemory_of_free (a : List Byte) (l : Option (List Byte)) {s : State} (hs : s.copyAnswers = []) :
    ∃ x, (∀ bs, x = some bs → bs.length = memLen s l) ∧
      exec (.readMemory a l) s = .next (replyMemory x (tookCopy (memAddr s a) (memLen s l) (copyAnswerOf x) s)) := by
  obtain ⟨x, c, hask⟩ := askCopy_of_free hs (memAddr s a) (memLen s l)
  obtain ⟨hcount, htook⟩ := askCopy_ok hask
  exact ⟨x, hcount, by rw [exec_readMemory_of_ask hask, htook]⟩

/-- A request with no answer listed advances the draws and leaves the empty list. -/
theorem tookRegs_of_free {s : State} (hs : s.regsAnswers = []) (a : RegsAnswer) :
    tookRegs a s = { s with draws := s.draws + 1, ports := s.ports ++ [.regs a] } := by
  simp only [tookRegs, hs, List.tail_nil]

theorem tookCopy_of_free {s : State} (hs : s.copyAnswers = []) (p n : Nat) (a : CopyAnswer) :
    tookCopy p n a s = { s with draws := s.draws + 1, ports := s.ports ++ [.copy p n a] } := by
  simp only [tookCopy, hs, List.tail_nil]

/-- Settles O36: a free answer is within the contract (`exec_readRegisters_of_free`, `exec_readMemory_of_free`), and
the two results of a copy are the two replies of `m`. -/
theorem commandsCompleteWithFreeAnswers : Obligations.CommandsCompleteWithFreeAnswers := by
  refine ⟨fun r s hs => ?_, fun a l s hs => ?_⟩
  · obtain ⟨cpu, ws, hcount, hexec⟩ := exec_readRegisters_of_free r hs
    refine ⟨cpu, ws, hcount, ?_⟩
    rw [hexec, next_sendReply rfl, tookRegs_of_free hs, registerDump]
  · obtain ⟨x, hcount, hexec⟩ := exec_readMemory_of_free a l hs
    rw [hexec, tookCopy_of_free hs]
    cases x with
    | none => exact .inl (next_sendReply frame_txtE02 _)
    | some bs => exact .inr ⟨bs, hcount bs rfl, next_sendReply rfl _⟩

/-! ### Broken contracts -/

/-- Silence and a wrong count of words are outside the contract of `Regs()` (R242). -/
theorem regsReply_eq_none {n : Nat} {a : RegsAnswer} (h : ∀ cpu ws, a = .words cpu ws → ws.length ≠ n) :
    regsReply n a = none := by
  cases a with
  | silent => rfl
  | words cpu ws => exact if_neg (h cpu ws rfl)

/-- Silence and a wrong count of bytes are outside the contract of `SafeCopy` (R242). -/
theorem copyReply_eq_none {n : Nat} {a : CopyAnswer} (hfault : a ≠ .fault)
    (h : ∀ bs, a = .ok bs → bs.length ≠ n) : copyReply n a = none := by
  cases a with
  | silent => rfl
  | fault => exact absurd rfl hfault
  | ok bs => exact if_neg (h bs rfl)

/-- A listed answer outside its contract leaves the framer after the request: the converse of `askRegs_error`. -/
theorem askRegs_of_broken {s : State} {a : RegsAnswer} {more : List RegsAnswer} (hs : s.regsAnswers = a :: more)
    (ha : regsReply s.cfg.nregs a = none) : askRegs s = .error (.regsStuck (tookRegs a s)) := by
  simp only [askRegs, hs, ha]

/-- A listed answer outside its contract leaves the framer after the request: the converse of `askCopy_error`. -/
theorem askCopy_of_broken {s : State} {a : CopyAnswer} {more : List CopyAnswer} {p n : Nat}
    (hs : s.copyAnswers = a :: more) (ha : copyReply n a = none) :
    askCopy p n s = .error (.copyStuck (tookCopy p n a s)) := by
  simp only [askCopy, hs, ha]

/-- Settles O37: an answer outside its contract makes the request an error (`askRegs_of_broken`, `askCopy_of_broken`),
which `g` and `m` pass on with no reply. -/
theorem brokenCollaboratorIsStuck : Obligations.BrokenCollaboratorIsStuck := by
  refine ⟨fun r s x more hanswer hcount => ?_, fun a l s x more hanswer hfault hcount => ?_⟩
  · have hask := askRegs_of_broken hanswer (regsReply_eq_none hcount)
    simp only [exec, execReadRegisters, hask, tookRegs, hanswer, List.tail_cons]
  · have hask := askCopy_of_broken (p := memAddr s a) hanswer (copyReply_eq_none hfault hcount)
    simp only [exec, execReadMemory, hask, tookCopy, hanswer, List.tail_cons]

end Sys2Proof.Machine
end

section
/-! SUPPORT. The statements of 60_exceptions.md on a boundary where no byte is taken: the operator's quit and
waiting. -/

namespace Sys2Proof.Machine

/-- A state that encodes one of the six, in WAITACK with a reply, is legal: `illegal_of_phase` in the statements'
terms. -/
theorem illegal_of_isSome {s : State} (hst : (phaseOf s.st).isSome = true) (hw : s.st = 4 → s.replyValid = true) :
    illegal s = none := by
  obtain ⟨ph, hph⟩ := Option.isSome_iff_exists.1 hst
  have hcode := phaseCode_of_phaseOf hph
  exact illegal_of_phase hcode fun hwait => hw (hcode.trans (congrArg phaseCode hwait))

/-- In QUIT the row QUIT_HALT runs, whatever the pins and the transport say (R137). -/
theorem serve_of_quit (run : Instr → State → Host.Outcome State Fault Refusal) (q : Bool) {s : State}
    (hl : illegal s = none) (hq : s.st = phaseCode .quit) : serve run q s = run .quitHalt s := by
  simp [serve, hl, quitOutput, hq]

/-- Outside QUIT the operator's quit precedes whatever waits at the transport (R226). -/
theorem serve_of_quitReq (run : Instr → State → Host.Outcome State Fault Refusal) {s : State}
    (hl : illegal s = none) (hq : s.st ≠ phaseCode .quit) : serve run true s = .next (operatorQuit s) := by
  simp [serve, hl, quitOutput, hq]

/-- Outside QUIT, with no byte and no `quit_req`, the framer waits (R243). -/
theorem serve_of_no_byte (run : Instr → State → Host.Outcome State Fault Refusal) {s : State}
    (hl : illegal s = none) (hq : s.st ≠ phaseCode .quit) (hrx : s.rx = []) : serve run false s = .next s := by
  simp [serve, hl, quitOutput, hq, hrx]

/-- Settles O42: behind the boundary `serve` looks at the operator's quit before the transport. -/
theorem operatorQuitComesFirst : Obligations.OperatorQuitComesFirst := by
  intro s hcfg hreset hquitReq hphase hne hreply
  have hlegal : illegal (enterBoundary s) = none := illegal_of_isSome hphase hreply
  rw [step_of_noReset hcfg hreset, hquitReq, serve_of_quitReq exec hlegal hne]
  rfl

/-- Settles O44: the boundary brings nothing, and `serve` answers the state it is given. -/
theorem waitingKeepsAllState : Obligations.WaitingKeepsAllState := by
  intro s hcfg ⟨hreset, hquitReq⟩ hrx harrive hphase hreply
  have hlegal : illegal (enterBoundary s) = none := illegal_of_isSome hphase hreply
  have hnothing : (enterBoundary s).rx = [] := by simp [hrx, harrive]
  have hserve : serve exec false (enterBoundary s) = .next (enterBoundary s) := by
    by_cases hquit : (enterBoundary s).st = phaseCode .quit
    · exact serve_of_quit exec false hlegal hquit
    · exact serve_of_no_byte exec hlegal hquit hnothing
  rw [step_of_noReset hcfg hreset, hquitReq, hserve]
  simp [enterBoundary, harrive]

end Sys2Proof.Machine
end

section
/-! SUPPORT. The statements of 60_exceptions.md on the rows: which events they signal, and which of them enters QUIT. -/

namespace Sys2Proof.Machine

/-- A byte decodes to a row of R76 and never to a command. -/
theorem isCommand_of_decodeRx {c : RxContext} {b : Byte} {i : Instr} (h : decodeRx c b = .ok i) :
    i.isCommand = false :=
  isCommand_of_appliesIn (decodeRx_ok h).1

/-- In a legal state every byte has its row (R76). -/
theorem exists_decodeRx_of_legal {s : State} (h : illegal s = none) (b : Byte) :
    ∃ i, decodeRx (rxContext s) b = .ok i := by
  obtain ⟨ph, hst, -⟩ := illegal_eq_none h
  have hphase : (phaseOf (rxContext s).st).isSome = true := Option.isSome_of_eq_some (phaseOf_eq_some.2 hst)
  obtain ⟨i, hdec, -⟩ := everyByteHasOneRow (rxContext s) b hphase
  exact ⟨i, hdec⟩

/-! ### Events -/

/-- From `s` to `t` at most one event has been signalled, and EV4 or EV5 only where `P`. -/
def SignalsAtMostOne (P : Prop) (s t : State) : Prop :=
  t.events = s.events ∨ ∃ e, t.events = s.events ++ [e] ∧ (e = .ev4 ∨ e = .ev5 → P)

theorem SignalsAtMostOne.imp {P Q : Prop} {s t : State} (h : SignalsAtMostOne P s t) (hpq : P → Q) :
    SignalsAtMostOne Q s t :=
  h.imp_right fun ⟨e, ht, he⟩ => ⟨e, ht, hpq ∘ he⟩

theorem appendCommandByte_signals (P : Prop) (b : Byte) (s : State) : SignalsAtMostOne P s (appendCommandByte b s) := by
  unfold appendCommandByte
  split
  · exact .inl rfl
  · exact .inr ⟨.ev7, rfl, nofun⟩

/-- `m` signals only a copy that faults (R170). -/
theorem replyMemory_signals {P : Prop} (hP : P) (x : Option (List Byte)) (s : State) :
    SignalsAtMostOne P s (replyMemory x s) := by
  cases x with
  | none => exact .inr ⟨.ev5, rfl, fun _ => hP⟩
  | some bs => exact .inl rfl

theorem runCommand_signals {P : Prop} (hP : P) {c : Command} {s t : State} (h : runCommand c s = .next t) :
    SignalsAtMostOne P s t := by
  cases c <;> simp only [runCommand] at h
  case selectThread | queryOffsets | stopReason | kill => cases h; exact .inl rfl
  case queryOther | unknown => cases h; exact .inr ⟨.ev4, rfl, fun _ => hP⟩
  case readRegisters r =>
    obtain ⟨cpu, ws, -, rfl⟩ := execReadRegisters_next h
    exact .inl rfl
  case readMemory a l =>
    obtain ⟨x, -, rfl⟩ := execReadMemory_next h
    exact replyMemory_signals hP x (tookCopy _ _ _ s)

/-- A row signals at most one event, and EV4 or EV5 only by the command that CKSUM_LO_GOOD runs. -/
theorem exec_signals {i : Instr} {s t : State} (hrow : i.isCommand = false) (h : exec i s = .next t) :
    SignalsAtMostOne (∃ n, i = .cksumLoGood n) s t := by
  cases i
  case cksumLoGood n => exact runCommand_signals (s := emit [chPlus] s) ⟨n, rfl⟩ h
  case nakRx =>
    simp only [exec, execNakRx] at h
    split at h
    · cases h; exact .inl rfl
    · cases h
  case payloadStore b | payloadDrop b => cases h; exact appendCommandByte_signals _ b s
  case initNoise | cksum1Garbage | cksum2Garbage | cksumLoBad | waitackOther =>
    cases h; exact .inr ⟨_, rfl, nofun⟩
  case frameStart | frameEnd | cksumHi | ackRx | quitHalt => cases h; exact .inl rfl
  all_goals cases hrow

/-- A step without reset signals by the row it runs, if any. -/
theorem serve_signals {q : Bool} {s t : State} (h : serve exec q s = .next t) :
    SignalsAtMostOne (∃ b rest n, s.rx = b :: rest ∧ decodeRx (rxContext s) b = .ok (.cksumLoGood n)) s t := by
  obtain ⟨-, ⟨-, hrun⟩ | ⟨-, -, rfl⟩ | ⟨-, -, -, rfl⟩ | ⟨-, -, b, rest, i, hrx, hdec, hrun⟩⟩ := serve_next h
  · cases hrun; exact .inl rfl
  · exact .inl rfl
  · exact .inl rfl
  · have hrow := exec_signals (s := takeByte b rest s) (isCommand_of_decodeRx hdec) hrun
    refine hrow.imp ?_
    rintro ⟨n, rfl⟩
    exact ⟨b, rest, n, hrx, hdec⟩

/-- Settles O50: a step that goes on signals by the row it runs (`serve_signals`), and where a reset ends it,
nothing. -/
theorem stepSignalsAtMostOneEvent : Obligations.StepSignalsAtMostOneEvent := by
  intro s t hstep
  obtain ⟨-, ⟨-, hserve⟩ | rfl | ⟨k, r, u, -, rfl⟩⟩ := step_next hstep
  · exact serve_signals hserve
  · exact .inl rfl
  · exact .inl rfl

/-! ### QUIT -/

theorem goto_st_eq_quit_iff {ph : Phase} {s : State} : (goto ph s).st = phaseCode .quit ↔ ph = .quit := by
  cases ph <;> simp [phaseCode]

/-- Every command but `k` ends in WAITACK (R131, R132). -/
theorem runCommand_quits {c : Command} {s t : State} (h : runCommand c s = .next t) (ht : t.st = phaseCode .quit) :
    ∃ r, c = .kill r := by
  by_contra hne
  obtain ⟨p, u, -, -, rfl⟩ := runCommand_repliesFrom (not_exists.1 hne) h
  cases goto_st_eq_quit_iff.1 ht

/-- A row enters QUIT only as CKSUM_LO_GOOD running `k` (R132). -/
theorem exec_quits {i : Instr} {s t : State} (hrow : i.isCommand = false) (hs : s.st ≠ phaseCode .quit)
    (h : exec i s = .next t) (ht : t.st = phaseCode .quit) :
    ∃ n r, i = .cksumLoGood n ∧ decodeCommand (storedPayload s) = .kill r := by
  cases i
  case cksumLoGood n =>
    obtain ⟨r, hr⟩ := runCommand_quits h ht
    exact ⟨n, r, rfl, hr⟩
  case initNoise | cksum1Garbage | cksum2Garbage | quitHalt => cases h; exact absurd ht hs
  case nakRx =>
    simp only [exec, execNakRx] at h
    split at h
    · cases h; cases goto_st_eq_quit_iff.1 ht
    · cases h
  case frameStart | frameEnd | payloadStore | payloadDrop | cksumHi | cksumLoBad | ackRx | waitackOther =>
    cases h; cases goto_st_eq_quit_iff.1 ht
  all_goals cases hrow

/-- A step without reset enters QUIT by the operator or by `k`. -/
theorem serve_quits {q : Bool} {s t : State} (hs : s.st ≠ phaseCode .quit) (h : serve exec q s = .next t)
    (ht : t.st = phaseCode .quit) :
    q = true ∨ ∃ b rest n r, s.rx = b :: rest ∧ decodeRx (rxContext s) b = .ok (.cksumLoGood n) ∧
      decodeCommand (storedPayload s) = .kill r := by
  obtain ⟨-, ⟨hquit, -⟩ | ⟨-, hq, -⟩ | ⟨-, -, -, rfl⟩ | ⟨-, -, b, rest, i, hrx, hdec, hrun⟩⟩ := serve_next h
  · exact absurd hquit hs
  · exact .inl hq
  · exact absurd ht hs
  · obtain ⟨n, r, rfl, hkill⟩ := exec_quits (s := takeByte b rest s) (isCommand_of_decodeRx hdec) hs hrun ht
    exact .inr ⟨b, rest, n, r, hrx, hdec, hkill⟩

/-- Settles O54: `serve` enters QUIT by the operator or by `k` (`serve_quits`), and a reset ends in INIT. -/
theorem onlyKillOrOperatorQuits : Obligations.OnlyKillOrOperatorQuits := by
  intro s t hstep hs ht
  obtain ⟨-, ⟨-, hserve⟩ | rfl | ⟨k, r, u, -, rfl⟩⟩ := step_next hstep
  · exact serve_quits (s := enterBoundary s) hs hserve ht
  · cases ht
  · cases ht

end Sys2Proof.Machine
end

section
/-! SUPPORT. The statement of 60_exceptions.md on the trace of events: no operation reads it, and each writes it apart
from the rest of the state (R222). -/

namespace Sys2Proof.Machine

/-- `s` with another trace of events. -/
def retrace (es : List ErrorEvent) (s : State) : State := { s with events := es }

/-- What `f` answers is the same whatever the trace of events, but for the trace itself. -/
def IgnoresEvents (f : State → Host.Outcome State Fault Refusal) : Prop :=
  ∀ es s, withoutEvents (f (retrace es s)) = withoutEvents (f s)

section
variable (es : List ErrorEvent) (s : State)

@[simp] theorem retrace_cfg : (retrace es s).cfg = s.cfg := rfl
@[simp] theorem retrace_regsAnswers : (retrace es s).regsAnswers = s.regsAnswers := rfl
@[simp] theorem retrace_copyAnswers : (retrace es s).copyAnswers = s.copyAnswers := rfl
@[simp] theorem memLen_retrace (l : Option (List Byte)) : memLen (retrace es s) l = memLen s l := rfl

end

/-- Whether `Regs()` is answered, and by what, does not depend on the trace. -/
theorem execReadRegisters_ignoresEvents (r : List Byte) : IgnoresEvents (execReadRegisters r) := by
  intro es s
  cases ha : s.regsAnswers with
  | nil => simp only [execReadRegisters, askRegs, retrace_regsAnswers, ha]; rfl
  | cons a more =>
    cases hr : regsReply s.cfg.nregs a with
    | none => simp only [execReadRegisters, askRegs, retrace_regsAnswers, retrace_cfg, ha, hr]; rfl
    | some ws => simp only [execReadRegisters, askRegs, retrace_regsAnswers, retrace_cfg, ha, hr]; rfl

theorem replyMemory_ignoresEvents (x : Option (List Byte)) : IgnoresEvents fun s => .next (replyMemory x s) := by
  intro es s
  cases x with
  | none => rfl
  | some bs => rfl

/-- What `m` asks for, and the answer, do not depend on the trace. -/
theorem execReadMemory_ignoresEvents (a : List Byte) (l : Option (List Byte)) :
    IgnoresEvents (execReadMemory a l) := by
  intro es s
  cases hc : s.copyAnswers with
  | nil =>
    simp only [execReadMemory, askCopy, retrace_copyAnswers, hc]
    exact replyMemory_ignoresEvents _ es (tookCopy _ _ _ s)
  | cons c more =>
    cases hr : copyReply (memLen s l) c with
    | none => simp only [execReadMemory, askCopy, retrace_copyAnswers, memLen_retrace, hc, hr]; rfl
    | some x =>
      simp only [execReadMemory, askCopy, retrace_copyAnswers, memLen_retrace, hc, hr]
      exact replyMemory_ignoresEvents x es (tookCopy _ _ _ s)

theorem runCommand_ignoresEvents (c : Command) : IgnoresEvents (runCommand c) := by
  cases c with
  | readRegisters r => exact execReadRegisters_ignoresEvents r
  | readMemory a l => exact execReadMemory_ignoresEvents a l
  | selectThread | queryOffsets | queryOther | stopReason | kill | unknown => exact fun _ _ => rfl

/-- The room in the Command Buffer does not depend on the trace. -/
theorem appendCommandByte_ignoresEvents (b : Byte) :
    IgnoresEvents fun s => .next (goto .cmdRead (appendCommandByte b s)) := by
  intro es s
  by_cases hroom : s.cmdLen < s.cfg.cmdCap
  · simp only [appendCommandByte_room b hroom, appendCommandByte_room (s := retrace es s) b hroom]; rfl
  · simp only [appendCommandByte_full b hroom, appendCommandByte_full (s := retrace es s) b hroom]; rfl

/-- The one test of NAK_RX is of `replyValid` (`nakResendsTheCachedReply`). -/
theorem exec_nakRx_ignoresEvents : IgnoresEvents (exec .nakRx) := by
  intro es s
  obtain ⟨hresend, hfault⟩ := nakResendsTheCachedReply s
  obtain ⟨hresend', hfault'⟩ := nakResendsTheCachedReply (retrace es s)
  cases hreply : s.replyValid with
  | true => rw [hresend hreply, hresend' hreply]; rfl
  | false => rw [hfault hreply, hfault' hreply]

theorem exec_ignoresEvents (i : Instr) : IgnoresEvents (exec i) := by
  cases i with
  | cksumLoGood n =>
    exact fun es s => runCommand_ignoresEvents (decodeCommand (storedPayload s)) es (emit [chPlus] s)
  | payloadStore b => exact appendCommandByte_ignoresEvents b
  | payloadDrop b => exact appendCommandByte_ignoresEvents b
  | nakRx => exact exec_nakRx_ignoresEvents
  | readRegisters r => exact execReadRegisters_ignoresEvents r
  | readMemory a l => exact execReadMemory_ignoresEvents a l
  | frameStart | initNoise | frameEnd | cksumHi | cksum1Garbage | cksumLoBad | cksum2Garbage | ackRx | waitackOther
  | quitHalt | selectThread | queryOffsets | queryOther | stopReason | kill | unknown => exact fun _ _ => rfl

/-- What `serve` tests of the state is not the trace: in each of its cases the same one applies. -/
theorem serve_exec_ignoresEvents (q : Bool) : IgnoresEvents (serve exec q) := by
  intro es s
  cases hl : illegal s with
  | some f => rw [serve_of_illegal exec q hl, serve_of_illegal (s := retrace es s) exec q hl]
  | none =>
    by_cases hquit : s.st = phaseCode .quit
    · rw [serve_of_quit exec q hl hquit, serve_of_quit (s := retrace es s) exec q hl hquit]
      exact exec_ignoresEvents .quitHalt es s
    · cases q with
      | true => rw [serve_of_quitReq exec hl hquit, serve_of_quitReq (s := retrace es s) exec hl hquit]; rfl
      | false =>
        cases hrx : s.rx with
        | nil => rw [serve_of_no_byte exec hl hquit hrx, serve_of_no_byte (s := retrace es s) exec hl hquit hrx]; rfl
        | cons b rest =>
          obtain ⟨i, hdec⟩ := exists_decodeRx_of_legal hl b
          rw [serve_byte exec hl hquit hrx hdec, serve_byte (s := retrace es s) exec hl hquit hrx hdec]
          exact exec_ignoresEvents i es (takeByte b rest s)

/-- A reset inside the step keeps nothing of the trace that the step came to (R251). -/
theorem resetDuring_withoutEvents (k : Nat) (r : Bool) (s : State) (o : Host.Outcome State Fault Refusal) :
    resetDuring k r s (withoutEvents o) = resetDuring k r s o := by
  cases o with
  | next | refused => rfl
  | fault f => cases f <;> rfl

theorem resetDuring_ignoresEvents (k : Nat) (r : Bool) (o : Host.Outcome State Fault Refusal) :
    IgnoresEvents fun s => resetDuring k r s o := by
  intro es s
  cases o with
  | next | refused => rfl
  | fault f => cases f <;> rfl

theorem boundaryStep_ignoresEvents (now : Boundary) : IgnoresEvents (boundaryStep exec now) := by
  intro es s
  obtain ⟨arrive, q, rst⟩ := now
  cases rst with
  | released => exact serve_exec_ignoresEvents q es s
  | asserted => rfl
  | during k r =>
    calc withoutEvents (resetDuring k r (retrace es s) (serve exec q (retrace es s)))
      _ = withoutEvents (resetDuring k r s (serve exec q (retrace es s))) := resetDuring_ignoresEvents k r _ es s
      _ = withoutEvents (resetDuring k r s (serve exec q s)) := by
        rw [← resetDuring_withoutEvents, serve_exec_ignoresEvents q es s, resetDuring_withoutEvents]

/-- In a configuration of R7 a step is what the boundary says. -/
theorem step_of_valid {s : State} (h : s.cfg.valid = true) :
    step s = boundaryStep exec (nowBoundary s) (enterBoundary s) := if_pos h

/-- Settles O51: the boundary and the configuration are not the trace, and a step at a boundary ignores it
(`boundaryStep_ignoresEvents`). -/
theorem eventsChangeNothingElse : Obligations.EventsChangeNothingElse := by
  intro s es
  change withoutEvents (step (retrace es s)) = withoutEvents (step s)
  by_cases hcfg : s.cfg.valid = true
  · rw [step_of_valid hcfg, step_of_valid (s := retrace es s) hcfg]
    exact boundaryStep_ignoresEvents (nowBoundary s) es (enterBoundary s)
  · rw [step_of_not_valid hcfg, step_of_not_valid (s := retrace es s) hcfg]

end Sys2Proof.Machine
end

section
/-! SUPPORT. The statements of 70_reset_and_hazards.md: QUIT without a reset, and a reset at a boundary or inside a
step. -/

namespace Sys2Proof.Machine

/-! ### QUIT -/

/-- Settles O43: QUIT is legal whatever waits, and `serve` runs QUIT_HALT there before it looks at anything else. -/
theorem quitLastsUntilReset : Obligations.QuitLastsUntilReset := by
  intro s hcfg hst hreset
  have hlegal : illegal (enterBoundary s) = none := illegal_of_phase (ph := .quit) hst nofun
  refine ⟨?_, by simp [rxReady, hst, phaseCode], by simp [quitOutput, hst, phaseCode]⟩
  calc step s
    _ = serve exec (nowBoundary s).quitReq (enterBoundary s) := step_of_noReset hcfg hreset
    _ = exec .quitHalt (enterBoundary s) := serve_of_quit exec _ hlegal hst
    _ = .next (enterBoundary s) := quitHaltChangesNothing _

/-! ### Reset at the boundary -/

/-- Reset precedes whatever else the boundary brings (log entry 18). -/
theorem step_of_asserted {s : State} (hcfg : s.cfg.valid = true) (hrst : (nowBoundary s).rst = .asserted) :
    step s = .next (resetElements (enterBoundary s)) := by
  simp only [step_of_valid hcfg, boundaryStep, hrst]

/-- Settles O48: the step is the reset alone, and its values are those of `resetLeavesTheStatedValues`. -/
theorem resetSetsEveryElement : Obligations.ResetSetsEveryElement := by
  intro s hcfg hrst
  obtain ⟨hst, hlen, hacc, hhi, hreply, hvalid, hquit, hrx, htx, -⟩ := resetLeavesTheStatedValues (enterBoundary s)
  exact ⟨_, step_of_asserted hcfg hrst, hst, hlen, hacc, hhi, hreply, hvalid, hquit, hrx, htx, rfl, rfl, rfl, rfl⟩

/-! ### Reset inside a step -/

/-- With the reset pin of the boundary released, the step is what `serve` says of the same bytes and the same
`quit_req`. -/
theorem step_withoutReset {s : State} (hcfg : s.cfg.valid = true) :
    step { s with schedule := { nowBoundary s with rst := .released } :: s.schedule.tail } =
      serve exec (nowBoundary s).quitReq (enterBoundary s) :=
  step_of_noReset hcfg rfl

/-- A reset inside a step that would go on cuts that step short (R251). -/
theorem step_of_during {s u : State} {k : Nat} {r : Bool} (hcfg : s.cfg.valid = true)
    (hrst : (nowBoundary s).rst = .during k r)
    (hserve : serve exec (nowBoundary s).quitReq (enterBoundary s) = .next u) :
    step s = .next (cutShort k r (enterBoundary s) u) := by
  simp only [step_of_valid hcfg, boundaryStep, hrst, hserve, resetDuring]

/-- A step without reset only adds to the record of the ports. -/
theorem serve_ports {q : Bool} {s u : State} (h : serve exec q s = .next u) : ∃ ts, u.ports = s.ports ++ ts := by
  obtain ⟨hports, -⟩ | ⟨b, d, hports, -⟩ := serve_takesAtMostOneByte (congrArg reached h)
  · exact ⟨[], by rw [hports, List.append_nil]⟩
  · exact ⟨.rx b :: d, hports⟩

section
variable {s u : State} {ts : List Transfer} (h : u.ports = s.ports ++ ts)
include h

theorem sent_of_ports : sent u = sent s ++ ts.filterMap txByte := by simp only [sent, h, List.filterMap_append]

theorem requests_of_ports : requests u = requests s ++ ts.filter isRequest := by
  simp only [requests, h, List.filter_append]

/-- A cut step adds to the record what the cut leaves of the step's transfers. -/
theorem cutShort_ports (k : Nat) (r : Bool) : (cutShort k r s u).ports = s.ports ++ cutTransfers k r ts := by
  simp only [cutShort, h, List.drop_left]

/-- A cut step has emitted the first `k` bytes of the step's output (R251). -/
theorem sent_cutShort (k : Nat) (r : Bool) : sent (cutShort k r s u) = sent s ++ (ts.filterMap txByte).take k := by
  rw [sent_of_ports (cutShort_ports h k r), cutTransfers_txBytes]

/-- A cut step has made the step's request, or none (R251). -/
theorem requests_cutShort (k : Nat) (r : Bool) :
    requests (cutShort k r s u) = if r then requests u else requests s := by
  rw [requests_of_ports (cutShort_ports h k r), cutTransfers_requests, requests_of_ports h]
  cases r with
  | true => rfl
  | false => exact List.append_nil _

end

/-- Settles O49: `cutShort` writes the reset values, and of the transfers that the step adds (`serve_ports`) it keeps the
first `k` output bytes and the request or none. -/
theorem resetInsideAStepCutsItsOutput : Obligations.ResetInsideAStepCutsItsOutput := by
  intro s k r u hcfg hrst hstep
  have hserve : serve exec (nowBoundary s).quitReq (enterBoundary s) = .next u := by
    rw [← step_withoutReset hcfg, hstep]
  obtain ⟨ts, hts⟩ := serve_ports hserve
  have hrequests := requests_cutShort hts k r
  refine ⟨_, ts.filterMap txByte, step_of_during hcfg hrst hserve, sent_of_ports hts, sent_cutShort hts k r, ?_, ?_,
    rfl, rfl, rfl, rfl, rfl, rfl⟩
  · rintro rfl; exact hrequests
  · rintro rfl; exact hrequests

end Sys2Proof.Machine
end

section
/-! SUPPORT. What a stored payload decodes to (30_encoding.md): the encoding of the decoded command, and sample words of
the table. -/

namespace Sys2Proof

theorem isCommand_commandInstr (c : Command) : (commandInstr c).isCommand = true := by
  cases c <;> rfl

end Sys2Proof

namespace Sys2Proof.Machine

/-- Settles O14: what the text selects is encoded as the text (`selectCommand_sound`), and a command text makes it well
formed (`wf_commandInstr_iff`). -/
theorem commandEncodeOfDecode : Obligations.CommandEncodeOfDecode := by
  intro s
  obtain ⟨hcanonical, hencode⟩ := selectCommand_sound (textOf s)
  have htext : isText (encode (commandInstr (decodeCommand s))) = true := hencode.symm ▸ isText_textOf s
  exact ⟨hencode, (wf_commandInstr_iff _).2 ⟨hcanonical, htext⟩, isCommand_commandInstr _⟩

/-- Settles O15: the decoder evaluated on each word. -/
theorem sampleWordsDecode : Obligations.SampleWordsDecode := by
  unfold Obligations.SampleWordsDecode
  decide

end Sys2Proof.Machine
end

section
/-! SUPPORT. The statement of 60_exceptions.md on progress: from a legal state, where the collaborators answer freely, a
boundary has a next state. -/

namespace Sys2Proof.Machine

/-- NAK_RX finds a cached reply in every legal state where it applies (R135). -/
theorem replyValid_of_nakRx {s : State} (hl : illegal s = none) (hin : appliesIn (rxContext s) .nakRx = true) :
    s.replyValid = true := by
  obtain ⟨ph, hst, hreply⟩ := illegal_eq_none hl
  have hwait : phaseOf s.st = some .waitAck := beq_iff_eq.1 hin
  rw [hst, phaseOf_phaseCode] at hwait
  exact hreply (Option.some.inj hwait)

/-- No row of R76 stops the framer: only CKSUM_LO_GOOD asks, and only NAK_RX tests the state. -/
theorem exists_exec_next {s : State} {i : Instr} (hl : illegal s = none) (hfree : FreeAnswers s)
    (hin : appliesIn (rxContext s) i = true) : ∃ t, exec i s = .next t := by
  cases i
  case cksumLoGood n =>
    obtain ⟨-, hkill⟩ | ⟨-, t, -, -, hreply, -⟩ := goodChecksumIsAnswered n s hfree
    · exact ⟨_, hkill⟩
    · exact ⟨t, hreply⟩
  case nakRx => exact ⟨_, (nakResendsTheCachedReply s).1 (replyValid_of_nakRx hl hin)⟩
  case frameStart | initNoise | frameEnd | payloadStore | payloadDrop | cksumHi | cksum1Garbage | cksumLoBad
    | cksum2Garbage | ackRx | waitackOther | quitHalt => exact ⟨_, rfl⟩
  all_goals cases hin

/-- Without a reset the framer goes on from every legal state: in QUIT, by the operator, waiting, or by a row. -/
theorem exists_serve_next {s : State} (q : Bool) (hl : illegal s = none) (hfree : FreeAnswers s) :
    ∃ t, serve exec q s = .next t := by
  by_cases hquit : s.st = phaseCode .quit
  · exact ⟨s, (serve_of_quit exec q hl hquit).trans (quitHaltChangesNothing s)⟩
  cases q with
  | true => exact ⟨_, serve_of_quitReq exec hl hquit⟩
  | false =>
    cases hrx : s.rx with
    | nil => exact ⟨s, serve_of_no_byte exec hl hquit hrx⟩
    | cons b rest =>
      obtain ⟨i, hdec⟩ := exists_decodeRx_of_legal hl b
      obtain ⟨hin, -⟩ := decodeRx_ok hdec
      obtain ⟨t, hexec⟩ := exists_exec_next (s := takeByte b rest s) hl hfree hin
      exact ⟨t, (serve_byte exec hl hquit hrx hdec).trans hexec⟩

/-- Settles O57: the invariant makes the state legal, so `serve` goes on (`exists_serve_next`), and a reset at the
boundary or inside the step answers a state too. -/
theorem framerNeverStopsByItself : Obligations.FramerNeverStopsByItself := by
  intro s hinv hfree
  have hlegal : illegal (enterBoundary s) = none := illegal_of_isSome hinv.phase hinv.ack
  obtain ⟨t, hserve⟩ := exists_serve_next (s := enterBoundary s) (nowBoundary s).quitReq hlegal hfree
  cases hrst : (nowBoundary s).rst with
  | released => exact ⟨t, (step_of_noReset hinv.cfg hrst).trans hserve⟩
  | asserted => exact ⟨_, step_of_asserted hinv.cfg hrst⟩
  | during k r => exact ⟨_, step_of_during hinv.cfg hrst hserve⟩

end Sys2Proof.Machine
end
